-- ==== Sys2Proof/Word.lean ====
section
/-!
DEFINITION. The plain data of the block: channels, pixels, and the small sets of names the spec gives
(00_scope R9, 10_state R33, R36, 43_scheduler, 60_exceptions R279). No arithmetic stands here.
-/

namespace Sys2Proof

/-- One 8-bit channel, lifetime or heat value (00_scope R9, 10_state R38, R39). -/
abbrev Byte := BitVec 8

/-- A pixel: three 8-bit channels, always read and written whole (00_scope R9, 20_memory R64). -/
structure Pixel where
  r : Byte
  g : Byte
  b : Byte
deriving DecidableEq, Repr

/-- `BLACK = (0,0,0)` (00_scope R9). -/
def black : Pixel := ⟨0, 0, 0⟩

/-- The value of `STAGE`: the scheduler step taken next (10_state R33, 30_encoding R97). -/
inductive Stage where
  | idle
  | fill
  | write
  | yield
deriving DecidableEq, Repr

/-- The value of `SC_DIR`: `up` moves toward higher indices, `down` toward lower (10_state R36). -/
inductive Dir where
  | up
  | down
deriving DecidableEq, Repr

/-- What the write primitive answers (60_exceptions R279). -/
inductive WriteStatus where
  | ok
  | fail
deriving DecidableEq, Repr, Inhabited

/-- Who moves next: the scheduler loop, the host with its oldest command word, or the environment
with a reset (00_scope R12, 60_exceptions R275, R276). -/
inductive Turn where
  | scheduler
  | host
  | reset
deriving DecidableEq, Repr, Inhabited

/-- The seventeen routines of the Mode Library (30_encoding R94, 42_mode_registry R190). -/
inductive ModeId where
  | rainbow
  | solid
  | primaryCycle
  | randomFlash
  | chase
  | breathing
  | colorWipe
  | gradient
  | theaterChase
  | twinkle
  | sparkle
  | meteor
  | strobe
  | scanner
  | confetti
  | fire
  | pulse
deriving DecidableEq, Repr

end Sys2Proof
end

