-- ==== Sys2Proof/Machine/Color.lean ====
section
/-!
DEFINITION. Arithmetic on pixels: the packing of 00_scope R9, `Scale` (R9), the palette (20_memory R61 to
R63), the dim step of Meteor (41_modes_stateful R156) and Fire's colour ramp (R167).
-/

namespace Sys2Proof.Machine

/-- A channel from a number that the formulas keep in `0..255`. -/
def channel (v : Nat) : Byte := BitVec.ofNat 8 v

/-- The pixel `(r, g, b)` from three numbers in `0..255`. -/
def rgb (r g b : Nat) : Pixel := ⟨channel r, channel g, channel b⟩

/-- Format P: `r` in bits 23:16, `g` in 15:8, `b` in 7:0 (00_scope R9, 30_encoding R90). -/
def packPixel (c : Pixel) : BitVec 24 := c.r ++ c.g ++ c.b

/-- The pixel a 24-bit word denotes (00_scope R9). -/
def unpackPixel (w : BitVec 24) : Pixel :=
  ⟨w.extractLsb' 16 8, w.extractLsb' 8 8, w.extractLsb' 0 8⟩

/-- Apply a function on channel values to each channel. -/
def mapChannels (f : Nat → Nat) (c : Pixel) : Pixel :=
  rgb (f c.r.toNat) (f c.g.toNat) (f c.b.toNat)

/-- `Scale(c, e)`: every channel `(ch*e) div 255` (00_scope R9). -/
def scale (c : Pixel) (e : Nat) : Pixel := mapChannels (fun ch => ch * e / 255) c

/-- Meteor's global dim: every channel `(ch*METEOR_DIM) div 256` (41_modes_stateful R156). -/
def dim (factor : Nat) (c : Pixel) : Pixel := mapChannels (fun ch => ch * factor / 256) c

/-- The generation rule of the palette, total on all integers (20_memory R61). -/
def wheel (position : Int) : Pixel :=
  if position < 0 ∨ position > 255 then black
  else
    let p := position.toNat
    if p < 85 then rgb (3 * p) (255 - 3 * p) 0
    else if p < 170 then rgb (255 - 3 * (p - 85)) 0 (3 * (p - 85))
    else rgb 0 (3 * (p - 170)) (255 - 3 * (p - 170))

/-- A palette lookup: the index wraps modulo 256, then `PAL[k] = wheel(k)` (20_memory R62, R63). -/
def pal (x : Nat) : Pixel := wheel (Int.ofNat (x % 256))

/-- Fire's red, yellow, white ramp (41_modes_stateful R167). -/
def heatColor (h : Nat) : Pixel :=
  if h < 85 then rgb (3 * h) 0 0
  else if h < 170 then rgb 255 (3 * (h - 85)) 0
  else rgb 255 255 (3 * (h - 170))

end Sys2Proof.Machine
end

