-- ==== Sys2Proof/Syntax.lean ====
section
/-!
DEFINITION. The instructions: one constructor per row of spec/opcode_table.json, in the table's order.
-/

namespace Sys2Proof

/-- The eight host commands (44_control_commands), the seventeen mode routines (40, 41) and the four
scheduler stages (43_scheduler). Rates and steps are the integers `signed_24(imm)` (30_encoding R91);
WellFormed.lean checks their range. -/
inductive Instr where
  | setMode (n : BitVec 8)
  | setSpeed (step : Int)
  | setFillRate (hz : Int)
  | setWriteRate (hz : Int)
  | start
  | stop
  | setColor (c : Pixel)
  | clrColor
  | modeRainbow
  | modeSolid
  | modePrimaryCycle
  | modeRandomFlash
  | modeChase
  | modeBreathing
  | modeColorWipe
  | modeGradient
  | modeTheaterChase
  | modeTwinkle
  | modeSparkle
  | modeMeteor
  | modeStrobe
  | modeScanner
  | modeConfetti
  | modeFire
  | modePulse
  | stageIdle
  | stageFill
  | stageWrite
  | stageYield
deriving DecidableEq, Repr

end Sys2Proof
end

