-- ==== Sys2Proof/WellFormed.lean ====
section
/-!
DEFINITION. Which instructions have an encoding: a rate or a step must be a 24-bit two's-complement
integer (30_encoding R91). Every other operand's type already holds exactly its legal values.
-/

namespace Sys2Proof

/-- `-8388608..8388607`, the range of the operand shape `int24` (30_encoding R91, R100). -/
def int24Ok (z : Int) : Bool := decide (-8388608 ≤ z) && decide (z ≤ 8388607)

/-- The instruction has an encoding (30_encoding R91, R92, R94, R97). -/
def Instr.wellFormed : Instr → Bool
  | .setMode _ => true
  | .setSpeed step => int24Ok step
  | .setFillRate hz => int24Ok hz
  | .setWriteRate hz => int24Ok hz
  | .start => true
  | .stop => true
  | .setColor _ => true
  | .clrColor => true
  | .modeRainbow => true
  | .modeSolid => true
  | .modePrimaryCycle => true
  | .modeRandomFlash => true
  | .modeChase => true
  | .modeBreathing => true
  | .modeColorWipe => true
  | .modeGradient => true
  | .modeTheaterChase => true
  | .modeTwinkle => true
  | .modeSparkle => true
  | .modeMeteor => true
  | .modeStrobe => true
  | .modeScanner => true
  | .modeConfetti => true
  | .modeFire => true
  | .modePulse => true
  | .stageIdle => true
  | .stageFill => true
  | .stageWrite => true
  | .stageYield => true

end Sys2Proof
end

