-- ==== Sys2Proof/Decode.lean ====
section
/-!
DEFINITION. The decoder, total on every word of the three encoded formats, and the encoder beside it
(30_encoding R90 to R97). Which format a word has is known from where it stands (the command port, `MODE`,
`STAGE`); no bit of the word says it (R90; log 13).
-/

namespace Sys2Proof

/-- An encoded instruction: a command word (format C), a mode number (M) or a stage code (S). -/
inductive Encoding where
  | command (w : BitVec 32)
  | modeNumber (n : BitVec 8)
  | stageCode (c : BitVec 2)
deriving DecidableEq, Repr

/-- Why a word is no instruction. -/
inductive Reject where
  /-- A reserved command word (30_encoding R93, 93 U1). -/
  | reservedCommand (w : BitVec 32)
  /-- A mode number that names no routine (30_encoding R95); `resolve` never passes one on. -/
  | unknownMode (n : BitVec 8)
deriving DecidableEq, Repr

/-- Field `op`, bits 31:24 of a command word (30_encoding R90). -/
def opField (w : BitVec 32) : BitVec 8 := w.extractLsb' 24 8

/-- Field `imm`, bits 23:0 of a command word (30_encoding R90). -/
def immField (w : BitVec 32) : BitVec 24 := w.extractLsb' 0 24

/-- The operand shape `int24`: `signed_24(imm)` (30_encoding R91). -/
def signed24 (imm : BitVec 24) : Int := imm.toInt

/-- A command whose operand shape is `none`: `imm` must be 0 (30_encoding R91, R93). -/
def bareCommand (w : BitVec 32) (i : Instr) : Except Reject Instr :=
  if immField w = 0 then .ok i else .error (.reservedCommand w)

/-- The command a 32-bit word denotes; every word outside the eight rows is reserved (30_encoding R92,
R93). -/
def decodeCommand (w : BitVec 32) : Except Reject Instr :=
  match (opField w).toNat with
  | 0x01 =>
    if (immField w).extractLsb' 8 16 = 0 then .ok (.setMode ((immField w).extractLsb' 0 8))
    else .error (.reservedCommand w)
  | 0x02 => .ok (.setSpeed (signed24 (immField w)))
  | 0x03 => .ok (.setFillRate (signed24 (immField w)))
  | 0x04 => .ok (.setWriteRate (signed24 (immField w)))
  | 0x05 => bareCommand w .start
  | 0x06 => bareCommand w .stop
  | 0x07 => .ok (.setColor (Machine.unpackPixel (immField w)))
  | 0x08 => bareCommand w .clrColor
  | _ => .error (.reservedCommand w)

/-- The routine of a mode number (30_encoding R94). -/
def modeOfNumber (n : BitVec 8) : Option ModeId :=
  match n.toNat with
  | 0x00 => some .rainbow
  | 0x01 => some .solid
  | 0x02 => some .primaryCycle
  | 0x03 => some .randomFlash
  | 0x04 => some .chase
  | 0x05 => some .breathing
  | 0x06 => some .colorWipe
  | 0x07 => some .gradient
  | 0x08 => some .theaterChase
  | 0x09 => some .twinkle
  | 0x0A => some .sparkle
  | 0x0B => some .meteor
  | 0x0C => some .strobe
  | 0x0D => some .scanner
  | 0x0E => some .confetti
  | 0x0F => some .fire
  | 0x10 => some .pulse
  | _ => none

/-- The number of a routine (30_encoding R94). -/
def numberOfMode : ModeId → BitVec 8
  | .rainbow => 0x00
  | .solid => 0x01
  | .primaryCycle => 0x02
  | .randomFlash => 0x03
  | .chase => 0x04
  | .breathing => 0x05
  | .colorWipe => 0x06
  | .gradient => 0x07
  | .theaterChase => 0x08
  | .twinkle => 0x09
  | .sparkle => 0x0A
  | .meteor => 0x0B
  | .strobe => 0x0C
  | .scanner => 0x0D
  | .confetti => 0x0E
  | .fire => 0x0F
  | .pulse => 0x10

/-- The instruction that is a routine (30_encoding R94). -/
def instrOfMode : ModeId → Instr
  | .rainbow => .modeRainbow
  | .solid => .modeSolid
  | .primaryCycle => .modePrimaryCycle
  | .randomFlash => .modeRandomFlash
  | .chase => .modeChase
  | .breathing => .modeBreathing
  | .colorWipe => .modeColorWipe
  | .gradient => .modeGradient
  | .theaterChase => .modeTheaterChase
  | .twinkle => .modeTwinkle
  | .sparkle => .modeSparkle
  | .meteor => .modeMeteor
  | .strobe => .modeStrobe
  | .scanner => .modeScanner
  | .confetti => .modeConfetti
  | .fire => .modeFire
  | .pulse => .modePulse

/-- The routine a mode number names, or its rejection (30_encoding R94, R95). -/
def decodeMode (n : BitVec 8) : Except Reject Instr :=
  match modeOfNumber n with
  | some m => .ok (instrOfMode m)
  | none => .error (.unknownMode n)

/-- `STAGE` as a 2-bit code (30_encoding R97). -/
def stageCodeOf : Stage → BitVec 2
  | .idle => 0b00
  | .fill => 0b01
  | .write => 0b10
  | .yield => 0b11

/-- The stage of a 2-bit code; all four are legal (30_encoding R97). -/
def stageOfCode (c : BitVec 2) : Stage :=
  match c.toNat with
  | 0 => .idle
  | 1 => .fill
  | 2 => .write
  | _ => .yield

/-- The scheduler step of a stage (30_encoding R97). -/
def instrOfStage : Stage → Instr
  | .idle => .stageIdle
  | .fill => .stageFill
  | .write => .stageWrite
  | .yield => .stageYield

/-- The scheduler step a stage code names (30_encoding R97). -/
def decodeStage (c : BitVec 2) : Instr := instrOfStage (stageOfCode c)

/-- The decoder over all three formats. -/
def decode : Encoding → Except Reject Instr
  | .command w => decodeCommand w
  | .modeNumber n => decodeMode n
  | .stageCode c => .ok (decodeStage c)

/-- A command word from its fields (30_encoding R90). -/
def commandWord (op : BitVec 8) (imm : BitVec 24) : Encoding := .command (op ++ imm)

/-- The encoding of an instruction (30_encoding R91, R92, R94, R97); for a rate or a step outside the
24-bit range, which WellFormed refuses, the operand's low 24 bits. -/
def encode : Instr → Encoding
  | .setMode n => commandWord 0x01 (n.setWidth 24)
  | .setSpeed step => commandWord 0x02 (BitVec.ofInt 24 step)
  | .setFillRate hz => commandWord 0x03 (BitVec.ofInt 24 hz)
  | .setWriteRate hz => commandWord 0x04 (BitVec.ofInt 24 hz)
  | .start => commandWord 0x05 0
  | .stop => commandWord 0x06 0
  | .setColor c => commandWord 0x07 (Machine.packPixel c)
  | .clrColor => commandWord 0x08 0
  | .modeRainbow => .modeNumber 0x00
  | .modeSolid => .modeNumber 0x01
  | .modePrimaryCycle => .modeNumber 0x02
  | .modeRandomFlash => .modeNumber 0x03
  | .modeChase => .modeNumber 0x04
  | .modeBreathing => .modeNumber 0x05
  | .modeColorWipe => .modeNumber 0x06
  | .modeGradient => .modeNumber 0x07
  | .modeTheaterChase => .modeNumber 0x08
  | .modeTwinkle => .modeNumber 0x09
  | .modeSparkle => .modeNumber 0x0A
  | .modeMeteor => .modeNumber 0x0B
  | .modeStrobe => .modeNumber 0x0C
  | .modeScanner => .modeNumber 0x0D
  | .modeConfetti => .modeNumber 0x0E
  | .modeFire => .modeNumber 0x0F
  | .modePulse => .modeNumber 0x10
  | .stageIdle => .stageCode 0b00
  | .stageFill => .stageCode 0b01
  | .stageWrite => .stageCode 0b10
  | .stageYield => .stageCode 0b11

/-- The number an encoding's bits spell. -/
def Encoding.bits : Encoding → Nat
  | .command w => w.toNat
  | .modeNumber n => n.toNat
  | .stageCode c => c.toNat

/-- The five formats of 30_encoding R90. An instruction has one of the first three; P is packed by
`Machine.packPixel` and L by `Machine.packEvent`. -/
inductive Format where
  /-- A host command word. -/
  | C
  /-- A mode number. -/
  | M
  /-- A stage code. -/
  | S
  /-- A pixel word. -/
  | P
  /-- A log event. -/
  | L
deriving DecidableEq, Repr

/-- The one length of each format, in bits (30_encoding R90). -/
def formatBits : Format → Nat
  | .C => 32
  | .M => 8
  | .S => 2
  | .P => 24
  | .L => 16

/-- The format of an encoding. -/
def Encoding.format : Encoding → Format
  | .command _ => .C
  | .modeNumber _ => .M
  | .stageCode _ => .S

/-- One row of the opcode table: a word `w` of this format is in the row iff `w & mask = pattern`
(30_encoding R92, R94, R97). -/
structure OpcodeRow where
  format : Format
  pattern : Nat
  mask : Nat
deriving DecidableEq, Repr

/-- The opcode-table row of each instruction (30_encoding R92, R94, R97). -/
def opcodeRow : Instr → OpcodeRow
  | .setMode _ => ⟨.C, 0x01000000, 0xFFFFFF00⟩
  | .setSpeed _ => ⟨.C, 0x02000000, 0xFF000000⟩
  | .setFillRate _ => ⟨.C, 0x03000000, 0xFF000000⟩
  | .setWriteRate _ => ⟨.C, 0x04000000, 0xFF000000⟩
  | .start => ⟨.C, 0x05000000, 0xFFFFFFFF⟩
  | .stop => ⟨.C, 0x06000000, 0xFFFFFFFF⟩
  | .setColor _ => ⟨.C, 0x07000000, 0xFF000000⟩
  | .clrColor => ⟨.C, 0x08000000, 0xFFFFFFFF⟩
  | .modeRainbow => ⟨.M, 0x00, 0xFF⟩
  | .modeSolid => ⟨.M, 0x01, 0xFF⟩
  | .modePrimaryCycle => ⟨.M, 0x02, 0xFF⟩
  | .modeRandomFlash => ⟨.M, 0x03, 0xFF⟩
  | .modeChase => ⟨.M, 0x04, 0xFF⟩
  | .modeBreathing => ⟨.M, 0x05, 0xFF⟩
  | .modeColorWipe => ⟨.M, 0x06, 0xFF⟩
  | .modeGradient => ⟨.M, 0x07, 0xFF⟩
  | .modeTheaterChase => ⟨.M, 0x08, 0xFF⟩
  | .modeTwinkle => ⟨.M, 0x09, 0xFF⟩
  | .modeSparkle => ⟨.M, 0x0A, 0xFF⟩
  | .modeMeteor => ⟨.M, 0x0B, 0xFF⟩
  | .modeStrobe => ⟨.M, 0x0C, 0xFF⟩
  | .modeScanner => ⟨.M, 0x0D, 0xFF⟩
  | .modeConfetti => ⟨.M, 0x0E, 0xFF⟩
  | .modeFire => ⟨.M, 0x0F, 0xFF⟩
  | .modePulse => ⟨.M, 0x10, 0xFF⟩
  | .stageIdle => ⟨.S, 0x0, 0x3⟩
  | .stageFill => ⟨.S, 0x1, 0x3⟩
  | .stageWrite => ⟨.S, 0x2, 0x3⟩
  | .stageYield => ⟨.S, 0x3, 0x3⟩

/-- The encoding's bits lie in the row. -/
def OpcodeRow.holds (row : OpcodeRow) (e : Encoding) : Bool :=
  decide (e.format = row.format) && decide (e.bits &&& row.mask = row.pattern)

/-- The encoding that an opcode-table row of `nbits` bits stands for: 32 bits a command word, 2 bits a
stage code, 8 bits a mode number (log 13). -/
def tableEncoding (nbits w : Nat) : Option Encoding :=
  if nbits = 32 then some (.command (BitVec.ofNat 32 w))
  else if nbits = 8 then some (.modeNumber (BitVec.ofNat 8 w))
  else if nbits = 2 then some (.stageCode (BitVec.ofNat 2 w))
  else none

/-- The instruction the decoder reads from a table word of `nbits` bits. -/
def decodeTableWord (nbits w : Nat) : Option Instr :=
  match tableEncoding nbits w with
  | none => none
  | some e =>
    match decode e with
    | .ok i => some i
    | .error _ => none

end Sys2Proof
end

