-- ==== Sys2Proof/Config.lean ====
section
/-!
DEFINITION. What one machine fixes: the construction parameters (00_scope R5), the tuning parameters
(00_scope R7), the values State.reset takes for them (log 1, 2), and the free answers of the
environment (00_scope R14; log 3 to 6), which have no body, so that nothing can be proved of them.
-/

namespace Sys2Proof

/-- Rounding of an exact half in `round(1000/hz)` (00_scope R7, 44_control_commands R231). -/
inductive RateTie where
  | even
  | up
deriving DecidableEq, Repr

/-- The construction parameters, sampled at reset (00_scope R5). The rates are 24-bit two's-complement
patterns; the speed step is any integer. -/
structure Construction where
  numLeds : BitVec 16
  brightness : BitVec 7
  fillRateHz : BitVec 24
  writeRateHz : BitVec 24
  speed : Int
deriving DecidableEq, Repr

/-- The tuning parameters of 00_scope R7. `TW_DEN` is no field: the source fixes it at 50. -/
structure Tuning where
  rateTie : RateTie
  gradientSpan : Nat
  strobePeriod : Nat
  strobeOn : Nat
  pulsePeriod : Nat
  twLifeMin : Nat
  twLifeMax : Nat
  spDen : Nat
  spLifeMin : Nat
  spLifeMax : Nat
  cfDen : Nat
  cfLifeMin : Nat
  cfLifeMax : Nat
  cfHueSpread : Nat
  meteorTrail : Nat
  meteorDim : Nat
  fireCoolMax : Nat
  fireHeatMin : Nat
  fireHeatMax : Nat
deriving DecidableEq, Repr

namespace Config

/-- `TW_DEN = 50`: "twinkle fires with probability 1/50 per pixel per tick" (00_scope R7). -/
def twDen : Nat := 50

/-- The reference values of 00_scope R7, which State.reset takes. DESIGN CHOICE, log 2. -/
def tuning : Tuning where
  rateTie := .even
  gradientSpan := 85
  strobePeriod := 8
  strobeOn := 4
  pulsePeriod := 64
  twLifeMin := 10
  twLifeMax := 30
  spDen := 20
  spLifeMin := 1
  spLifeMax := 1
  cfDen := 10
  cfLifeMin := 8
  cfLifeMax := 16
  cfHueSpread := 64
  meteorTrail := 4
  meteorDim := 192
  fireCoolMax := 20
  fireHeatMin := 160
  fireHeatMax := 255

/-- The construction parameters State.reset takes: those of 95_test_vectors P1. DESIGN CHOICE, log 1. -/
def construction : Construction where
  numLeds := 4
  brightness := 50
  fillRateHz := 1
  writeRateHz := 1
  speed := 1

/-- The answer to the `n`-th `ClockSample` (60_exceptions R277). Free value, log 3. -/
opaque freeClock : Nat → BitVec 32

/-- The number the `n`-th `Draw` is taken from (60_exceptions R278). Free value, log 4. -/
opaque freeDraw : Nat → Nat

/-- The status of the `n`-th `WritePrimitive` (60_exceptions R279). Free value, log 5. -/
opaque freeStatus : Nat → WriteStatus

/-- Who moves at the `n`-th choice between agents (60_exceptions R275). Free value, log 6. -/
opaque freeTurn : Nat → Turn

end Config

end Sys2Proof
end

