-- ==== Sys2Proof/Machine/Memory.lean ====
section
/-!
DEFINITION. The block's memories (20_memory R60, R65, R66): lists of (index, element) pairs in one canonical
form, and their three operations. An unlisted index reads as the blank element, `BLACK` or 0: the reset
contents of 10_state R44 (log 12). A memory of bytes is a list of Host.Cell.
-/

namespace Sys2Proof.Machine

/-- An element-addressed memory, sparse: indices strictly rising, no entry equal to the blank element. -/
abbrev Memory (α : Type) := List (Nat × α)

/-- The canonical form, as a Bool: strictly rising indices, none below `lo`, no blank entry. -/
def Memory.wfFrom {α : Type} [DecidableEq α] (blank : α) : Nat → Memory α → Bool
  | _, [] => true
  | lo, (b, w) :: m => decide (lo ≤ b) && decide (w ≠ blank) && Memory.wfFrom blank (b + 1) m

/-- The memory is in canonical form. -/
def Memory.wf {α : Type} [DecidableEq α] (blank : α) (m : Memory α) : Bool :=
  Memory.wfFrom blank 0 m

/-- Every listed index is below `n`. -/
def Memory.below {α : Type} (n : Nat) (m : Memory α) : Bool := m.all (fun e => decide (e.1 < n))

/-- `X[a]`, reading: the element at an index (00_scope R10). -/
def Memory.read {α : Type} (blank : α) : Memory α → Nat → α
  | [], _ => blank
  | (b, w) :: m, a => if a = b then w else Memory.read blank m a

/-- Drop whatever is listed at an index. -/
def Memory.erase {α : Type} (m : Memory α) (a : Nat) : Memory α :=
  m.filter (fun e => decide (e.1 ≠ a))

/-- Put an entry before the first entry of a higher index. -/
def Memory.place {α : Type} : Memory α → Nat → α → Memory α
  | [], a, v => [(a, v)]
  | (b, w) :: m, a, v => if a < b then (a, v) :: (b, w) :: m else (b, w) :: Memory.place m a v

/-- `X[a] <- v` (00_scope R10); writing the blank element unlists the index. -/
def Memory.write {α : Type} [DecidableEq α] (blank : α) (m : Memory α) (a : Nat) (v : α) : Memory α :=
  if v = blank then m.erase a else (m.erase a).place a v

/-- `for i = 0 .. n-1: X[i] <- f(i, X[i])`, in ascending order (00_scope R10). -/
def Memory.updateAll {α : Type} [DecidableEq α] (blank : α) (n : Nat) (f : Nat → α → α) (m : Memory α) :
    Memory α :=
  (List.range n).foldl (fun m i => m.write blank i (f i (m.read blank i))) m

/-- `[X[0], ..., X[n-1]]` (20_memory R67). -/
def Memory.snapshot {α : Type} (blank : α) (n : Nat) (m : Memory α) : List α :=
  (List.range n).map (fun i => m.read blank i)

end Sys2Proof.Machine
end

