-- ==== Sys2Proof/Machine/Timer.lean ====
section
/-!
DEFINITION. The arithmetic of the two timers: the interval of a rate (44_control_commands R231) and the
interval comparator (43_scheduler R203). Nothing here looks at the state.
-/

namespace Sys2Proof.Machine

/-- `RateToInterval(hz)`: `max(1, round(1000/hz))`, 1 for a rate of 0 or below (44 R231). -/
def rateToInterval (tie : RateTie) (hz : Int) : Nat :=
  if hz ≤ 0 then 1
  else
    let h := hz.toNat
    let q := 1000 / h
    let r := 1000 % h
    max 1 (
      if 2 * r > h then q + 1
      else if 2 * r = h ∧ (tie = .up ∨ q % 2 = 1) then q + 1
      else q)

/-- The interval register's value for a rate (10_state R23). -/
def intervalOf (tie : RateTie) (hz : Int) : BitVec 16 := BitVec.ofNat 16 (rateToInterval tie hz)

/-- `Elapsed(now, last) = (now - last) mod 2^32`, unsigned (43 R203). -/
def elapsed (now last : BitVec 32) : Nat := (now - last).toNat

/-- `Due(now, last, iv)` (43 R203). -/
def due (now last : BitVec 32) (interval : BitVec 16) : Bool :=
  decide (elapsed now last ≥ interval.toNat)

end Sys2Proof.Machine
end

