-- ==== Sys2Proof/Machine/State.lean ====
section
/-!
DEFINITION. The state: every register and memory of 10_state R20 to R44, and the model's own fields that
hold the environment's answers and the block's outputs (00_scope R13; log 2 to 6, 9, 11). All plain data.
-/

namespace Sys2Proof.Machine

/-- One decay register file, `X_LIFE` and `X_COL` (10_state R38). -/
structure DecayFile where
  /-- The remaining lifetime of each pixel in fill ticks. -/
  life : Memory Byte
  /-- The colour each pixel was lit with. -/
  col : Memory Pixel
deriving DecidableEq, Repr

/-- The answering side of a port: answers laid out in advance, used first, and the number of answers given
so far, which indexes the free answers when none is laid out (60_exceptions R276; log 3 to 6). -/
structure Port (α : Type) where
  script : List α
  count : Nat
deriving DecidableEq, Repr

/-- What one write tick hands to the write primitive (30_encoding R99). -/
structure Frame where
  brightness : BitVec 7
  pixels : List Pixel
deriving DecidableEq, Repr

/-- One log event `{code, info}` (30_encoding R98). -/
structure LogEvent where
  code : Byte
  info : Byte
deriving DecidableEq, Repr

/-- The machine's state. -/
structure State where
  /-- `NUM_LEDS` (10_state R42). -/
  numLeds : BitVec 16
  /-- `BRIGHTNESS` (10_state R42). -/
  brightness : BitVec 7
  /-- `FILL_INTERVAL` (10_state R23). -/
  fillInterval : BitVec 16
  /-- `WRITE_INTERVAL` (10_state R23). -/
  writeInterval : BitVec 16
  /-- `LAST_FILL` (10_state R24). -/
  lastFill : BitVec 32
  /-- `LAST_WRITE` (10_state R24). -/
  lastWrite : BitVec 32
  /-- `PHASE` (10_state R25). -/
  phase : BitVec 8
  /-- `SPEED` (10_state R27). -/
  speed : BitVec 8
  /-- `MODE` (10_state R26). -/
  mode : BitVec 8
  /-- `SOLID_COLOR.valid` (10_state R28). -/
  solidValid : Bool
  /-- The pixel of `SOLID_COLOR` (10_state R28). -/
  solidPixel : Pixel
  /-- `RUN` (10_state R29). -/
  run : Bool
  /-- `PENDING` (10_state R30). -/
  pending : Bool
  /-- `CFG_ERR` (10_state R31). -/
  cfgErr : Bool
  /-- `NOW` (10_state R32). -/
  now : BitVec 32
  /-- `STAGE` (10_state R33). -/
  stage : Stage
  /-- `CHASE_POS` (10_state R35). -/
  chasePos : BitVec 16
  /-- `SC_POS` (10_state R36). -/
  scPos : BitVec 16
  /-- `SC_DIR` (10_state R36). -/
  scDir : Dir
  /-- `MT_POS` (10_state R37). -/
  mtPos : BitVec 16
  /-- `BUF` (10_state R22). -/
  buf : Memory Pixel
  /-- `TW_LIFE`, `TW_COL` (10_state R38). -/
  tw : DecayFile
  /-- `SP_LIFE`, `SP_COL` (10_state R38). -/
  sp : DecayFile
  /-- `CF_LIFE`, `CF_COL` (10_state R38). -/
  cf : DecayFile
  /-- `HEAT` (10_state R39); a memory of bytes is a list of Host.Cell. -/
  heat : Memory Byte
  /-- The tuning parameters (00_scope R7); no step writes them. The model's own field, log 2. -/
  tuning : Tuning
  /-- The clock port's answers (60_exceptions R277). The model's own field, log 3. -/
  clock : Port (BitVec 32)
  /-- The random port's answers (60_exceptions R278). The model's own field, log 4. -/
  random : Port Nat
  /-- The write port's status answers (60_exceptions R279). The model's own field, log 5. -/
  writer : Port WriteStatus
  /-- The choice of who moves next (60_exceptions R275). The model's own field, log 6. -/
  turns : Port Turn
  /-- The command words the host will issue, oldest first (60_exceptions R276). The model's own field,
  log 1. -/
  commands : List (BitVec 32)
  /-- The resets the environment will apply, oldest first (60_exceptions R276). The model's own field,
  log 9. -/
  resets : List Construction
  /-- The frames handed over so far, oldest first (00_scope R13). The model's own field, log 11. -/
  frames : List Frame
  /-- The log events emitted so far, oldest first (60_exceptions R265). The model's own field, log 11. -/
  log : List LogEvent
deriving DecidableEq, Repr

/-- Why the machine stops for good. -/
inductive Fault where
  /-- `CFG_ERR = 1`: neither the scheduler nor the host has a step (60_exceptions R261). Raised by every
  meaning and by `step` when no reset waits. Safe: the spec gives the block no step there (log 8). -/
  | configError
deriving DecidableEq, Repr

/-- Why a step has no meaning. -/
inductive Refusal where
  /-- The instruction of this mnemonic has no meaning yet; only arms of `exec` answer it. Safe. -/
  | notModelled (mnemonic : String)
  /-- The host issued a reserved command word (30_encoding R93, 93 U1). Raised by `step`. Safe (log 10). -/
  | reservedCommand (w : BitVec 32)
  /-- The tuning parameters are outside the constraints of 00_scope R7 (93 U12). Raised by the routines
  that use one. Safe (log 15). -/
  | illegalTuning
  /-- A reset with construction parameters outside 00_scope R5 (93 U6, U12). Raised by `performReset`.
  Safe (log 16). -/
  | illegalConstruction
  /-- `Draw(0)`, which 00_scope R11 does not define. Raised by Fire with `NUM_LEDS = 0` and `CFG_ERR = 0`,
  which 10_state R43 excludes. Safe (log 17). -/
  | drawWithNoChoice
deriving DecidableEq, Repr

/-- The three outcomes of a step of this machine. -/
abbrev Result := Host.Outcome State Fault Refusal

/-- A decay file with nothing lit (10_state R44). -/
def blankFile : DecayFile := ⟨[], []⟩

/-- A port that has answered nothing and has no answer laid out. -/
def freshPort {α : Type} : Port α := ⟨[], 0⟩

/-- Construction, which is reset: every piece of state at the value of 10_state R44, from the construction
parameters of 00_scope R5 (70_reset_and_hazards R290). The model's own fields start empty. -/
def State.construct (t : Tuning) (c : Construction) : State where
  numLeds := c.numLeds
  brightness := c.brightness
  fillInterval := intervalOf t.rateTie c.fillRateHz.toInt
  writeInterval := intervalOf t.rateTie c.writeRateHz.toInt
  lastFill := 0
  lastWrite := 0
  phase := 0
  speed := BitVec.ofInt 8 c.speed
  mode := 0
  solidValid := false
  solidPixel := black
  run := false
  pending := false
  cfgErr := decide (c.numLeds = 0)
  now := 0
  stage := .idle
  chasePos := 0
  scPos := 0
  scDir := .up
  mtPos := 0
  buf := []
  tw := blankFile
  sp := blankFile
  cf := blankFile
  heat := []
  tuning := t
  clock := freshPort
  random := freshPort
  writer := freshPort
  turns := freshPort
  commands := []
  resets := []
  frames := []
  log := []

/-- The machine right after reset, with the parameters Config names (log 1, 2). -/
def State.reset : State := State.construct Config.tuning Config.construction

end Sys2Proof.Machine
end

