-- ==== Sys2Proof/Machine/Ops.lean ====
section
/-!
DEFINITION. The named operations every meaning is built from: the ports (00_scope R11), the guards, painting
the strip, entering a mode fault (60_exceptions R263) and reset (70_reset_and_hazards R290).
-/

namespace Sys2Proof.Machine

/-! ## The environment's ports (00_scope R11, 60_exceptions R276 to R279) -/

/-- The answer a port gives next: the first one laid out, else the free one of this request. -/
def Port.answer {α : Type} (free : Nat → α) (p : Port α) : α := p.script.headD (free p.count)

/-- The port after one answer. -/
def Port.advance {α : Type} (p : Port α) : Port α := ⟨p.script.tail, p.count + 1⟩

/-- Lay an answer out in front of the others. -/
def Port.push {α : Type} (p : Port α) (x : α) : Port α := ⟨x :: p.script, p.count⟩

/-- `Draw(k)`, with the port after it: an integer in `0..k-1` (60_exceptions R278). -/
def drawBelow (k : Nat) (p : Port Nat) : Nat × Port Nat := (p.answer Config.freeDraw % k, p.advance)

/-- What `ClockSample()` answers (60_exceptions R277). -/
def clockAnswer (s : State) : BitVec 32 := s.clock.answer Config.freeClock

/-- The state after one `ClockSample()`. -/
def afterClock (s : State) : State := { s with clock := s.clock.advance }

/-- `Log(code, info)` (60_exceptions R265). -/
def emitLog (s : State) (code info : Byte) : State := { s with log := s.log ++ [⟨code, info⟩] }

/-- Format L: `code` in bits 15:8, `info` in bits 7:0 (30_encoding R90, R98). -/
def packEvent (e : LogEvent) : BitVec 16 := e.code ++ e.info

/-- The log event a 16-bit word denotes (30_encoding R90). -/
def unpackEvent (w : BitVec 16) : LogEvent := ⟨w.extractLsb' 8 8, w.extractLsb' 0 8⟩

/-- The log port's output so far: one format L word per event, oldest first (60_exceptions R265, R276). -/
def logWords (s : State) : List (BitVec 16) := s.log.map packEvent

/-- What `WritePrimitive` answers (60_exceptions R279). -/
def writeAnswer (s : State) : WriteStatus := s.writer.answer Config.freeStatus

/-- `WritePrimitive(frame, brightness)`: the frame goes out and one status is consumed (60_exceptions
R279). -/
def handOver (s : State) (f : Frame) : State :=
  { s with frames := s.frames ++ [f], writer := s.writer.advance }

/-! ## Guards -/

/-- Nothing is executed while `CFG_ERR = 1` (43_scheduler R200, 44_control_commands R230, 60_exceptions
R261). -/
def whenConfigured (s : State) (k : Result) : Result :=
  if s.cfgErr then .fault .configError else k

/-- The constraints of 00_scope R7 on the tuning parameters. -/
def tuningLegal (t : Tuning) : Bool :=
  decide (1 ≤ t.gradientSpan ∧ t.gradientSpan ≤ 255) &&
  decide (1 ≤ t.strobeOn ∧ t.strobeOn ≤ t.strobePeriod ∧ t.strobePeriod ≤ 256) &&
  decide (1 ≤ t.pulsePeriod ∧ t.pulsePeriod ≤ 256) &&
  decide (1 ≤ t.twLifeMin ∧ t.twLifeMin ≤ t.twLifeMax ∧ t.twLifeMax ≤ 255) &&
  decide (1 ≤ t.spDen ∧ 1 ≤ t.spLifeMin ∧ t.spLifeMin ≤ t.spLifeMax ∧ t.spLifeMax ≤ 255) &&
  decide (1 ≤ t.cfDen ∧ 1 ≤ t.cfLifeMin ∧ t.cfLifeMin ≤ t.cfLifeMax ∧ t.cfLifeMax ≤ 255) &&
  decide (1 ≤ t.cfHueSpread ∧ t.cfHueSpread ≤ 256) &&
  decide (1 ≤ t.meteorTrail ∧ t.meteorDim ≤ 255) &&
  decide (t.fireCoolMax ≤ 255 ∧ t.fireHeatMin ≤ t.fireHeatMax ∧ t.fireHeatMax ≤ 255)

/-- A routine that uses a tuning parameter has a meaning only within the constraints (93 U12; log 15). -/
def whenTuned (s : State) (k : Result) : Result :=
  if tuningLegal s.tuning then k else .refused .illegalTuning

/-- The constraints of 00_scope R5 on the construction parameters; `NUM_LEDS = 0` is no violation but the
configuration error (60_exceptions R261). -/
def constructionLegal (c : Construction) : Bool := decide (c.brightness.toNat ≤ 100)

/-! ## Painting -/

/-- `NUM_LEDS` as a number. -/
def State.numPixels (s : State) : Nat := s.numLeds.toNat

/-- `for i = 0 .. NL-1: BUF[i] <- f(i)` (40_modes_stateless R120). -/
def paintStrip (s : State) (f : Nat → Pixel) : State :=
  { s with buf := s.buf.updateAll black s.numPixels (fun i _ => f i) }

/-- Rainbow's palette index for pixel `i`: `(i*255) div NL + PHASE` (40 R121). -/
def rainbowIndex (s : State) (i : Nat) : Nat := i * 255 / s.numPixels + s.phase.toNat

/-- Paint Rainbow: the routine and the fallback of the fault recovery (40 R121, 60_exceptions R263). -/
def paintRainbow (s : State) : State := paintStrip s (fun i => pal (rainbowIndex s i))

/-- Paint one lit pixel in `PAL[PHASE]`, the others black (41_modes_stateful R150, R153). -/
def paintSpot (s : State) (pos : Nat) : State :=
  paintStrip s (fun i => if i = pos then pal s.phase.toNat else black)

/-! ## The mode fault -/

/-- `LOG_MODE_FAULT` (30_encoding R98). -/
def logModeFault : Byte := 0x01

/-- `LOG_WRITE_FAIL` (30_encoding R98). -/
def logWriteFail : Byte := 0x02

/-- Taking a `ModeFault`: one log event with the value of `MODE`, then Rainbow over the whole strip
(60_exceptions R263). Nothing is saved, and there is no return operation: recovery ends with the tick
(R264). -/
def takeModeFault (s : State) : State := paintRainbow (emitLog s logModeFault s.mode)

/-- A routine with a position register: the fault is tested on entry, before anything is written
(60_exceptions R262). -/
def withPosition (s : State) (pos : BitVec 16) (routine : State) : State :=
  if pos.toNat ≥ s.numPixels then takeModeFault s else routine

/-- The position after this one, wrapping at `NL` (41_modes_stateful R150, R156). -/
def nextPosition (s : State) (pos : BitVec 16) : BitVec 16 :=
  BitVec.ofNat 16 ((pos.toNat + 1) % s.numPixels)

/-! ## Reset -/

/-- Apply a reset: a new construction of the block, which discards all of its state
(70_reset_and_hazards R290). The environment's ports, what it still has to send and what it has received
are no state of the block and stay (log 9). -/
def performReset (c : Construction) (s : State) : Result :=
  if constructionLegal c then
    .next { State.construct s.tuning c with
      clock := s.clock, random := s.random, writer := s.writer, turns := s.turns,
      commands := s.commands, resets := s.resets, frames := s.frames, log := s.log }
  else .refused .illegalConstruction

end Sys2Proof.Machine
end

