-- ==== Sys2Proof/Machine/Operands.lean ====
section
/-!
DEFINITION. What the operands of the instructions stand for: resolving a mode number (42_mode_registry
R192), the colour of Solid (40_modes_stateless R122), the speed step (44_control_commands R232) and the
intensity envelopes (40 R125, R130).
-/

namespace Sys2Proof.Machine

/-- `Resolve(n)`: the number itself up to 0x10, else Rainbow's (42 R192). -/
def resolve (n : BitVec 8) : BitVec 8 := if n.toNat ≤ 0x10 then n else 0x00

/-- The routine a fill tick runs for a mode number (42 R193). -/
def routineOf (n : BitVec 8) : ModeId :=
  match modeOfNumber (resolve n) with
  | some m => m
  | none => .rainbow

/-- `SPEED <- step mod 256` (44 R232). -/
def speedOf (step : Int) : BitVec 8 := BitVec.ofInt 8 step

/-- Solid's colour: the supplied one if valid, else `PAL[PHASE]` (40 R122). -/
def solidColor (s : State) : Pixel := if s.solidValid then s.solidPixel else pal s.phase.toNat

/-- Primary cycle's colour (40 R123). -/
def primaryColor (phase : Nat) : Pixel :=
  if phase < 85 then rgb 255 0 0 else if phase < 170 then rgb 0 255 0 else rgb 0 0 255

/-- Breathing's triangle envelope (40 R125). -/
def breathingEnvelope (phase : Nat) : Nat := min 255 (2 * min phase (256 - phase))

/-- Color wipe's boundary (40 R126). -/
def wipeBoundary (s : State) : Nat := s.phase.toNat * s.numPixels / 256

/-- Gradient's palette index for pixel `i` (40 R127). -/
def gradientIndex (s : State) (i : Nat) : Nat :=
  i * s.tuning.gradientSpan / s.numPixels + s.phase.toNat

/-- Strobe's colour (40 R129). -/
def strobeColor (s : State) : Pixel :=
  if s.phase.toNat % s.tuning.strobePeriod < s.tuning.strobeOn then pal s.phase.toNat else black

/-- Pulse's sawtooth envelope (40 R130). -/
def pulseEnvelope (period phase : Nat) : Nat := 255 - phase % period * 255 / period

/-- Meteor's weight of trail pixel `k` (41_modes_stateful R156). -/
def trailWeight (trail k : Nat) : Nat := 255 - k * 255 / trail

end Sys2Proof.Machine
end

