-- ==== Sys2Proof/Machine/Flags.lean ====
section
/-!
DEFINITION. The flags and the predicates derived from them: the two gates (10_state R34, 43_scheduler
R203), the `STATUS` register (10_state R41) and the lifecycle (60_exceptions R269).
-/

namespace Sys2Proof.Machine

/-- The fill gate is `DUE` at the sampled clock value (43 R202, R203). -/
def fillDue (s : State) : Bool := due s.now s.lastFill s.fillInterval

/-- The write gate is `DUE` at the sampled clock value (43 R203, R204). -/
def writeDue (s : State) : Bool := due s.now s.lastWrite s.writeInterval

/-- One bit as a number. -/
def bit (b : Bool) : Nat := if b then 1 else 0

/-- `SC_DIR` as a bit: `UP = 0`, `DOWN = 1` (10_state R36). -/
def dirBit : Dir → Nat
  | .up => 0
  | .down => 1

/-- `STATUS`: bit 0 `RUN`, bit 1 `PENDING`, bit 2 `CFG_ERR`, bits 5:4 `STAGE` (10_state R41). -/
def statusWord (s : State) : BitVec 32 :=
  BitVec.ofNat 32 (bit s.run + 2 * bit s.pending + 4 * bit s.cfgErr + 16 * (stageCodeOf s.stage).toNat)

/-- The lifecycle states of 60_exceptions R269. -/
inductive Lifecycle where
  | configError
  | stopped
  | running
  | stopping
deriving DecidableEq, Repr

/-- The lifecycle state of a machine state (60_exceptions R269). -/
def lifecycle (s : State) : Lifecycle :=
  if s.cfgErr then .configError
  else if s.run then .running
  else if s.stage = .idle then .stopped
  else .stopping

/-- Quiescent: `STAGE = IDLE` and `RUN = 0`, or `CFG_ERR = 1` (00_scope R15). -/
def quiescent (s : State) : Bool := s.cfgErr || (decide (s.stage = .idle) && !s.run)

end Sys2Proof.Machine
end

