-- ==== Sys2Proof/Machine/Commands.lean ====
section
/-!
DEFINITION. The eight host commands (44_control_commands R232 to R239). Each runs whatever `STAGE` and `RUN`
are, and none while `CFG_ERR = 1` (R230).
-/

namespace Sys2Proof.Machine

/-- `SET_MODE`: `MODE <- Resolve(imm[7:0])` (44 R233). -/
def execSetMode (n : BitVec 8) (s : State) : Result :=
  whenConfigured s (.next { s with mode := resolve n })

/-- `SET_SPEED`: `SPEED <- step mod 256` (44 R232). -/
def execSetSpeed (step : Int) (s : State) : Result :=
  whenConfigured s (.next { s with speed := speedOf step })

/-- `SET_FILL_RATE`: `FILL_INTERVAL <- RateToInterval(hz)` (44 R234). -/
def execSetFillRate (hz : Int) (s : State) : Result :=
  whenConfigured s (.next { s with fillInterval := intervalOf s.tuning.rateTie hz })

/-- `SET_WRITE_RATE`: `WRITE_INTERVAL <- RateToInterval(hz)` (44 R235). -/
def execSetWriteRate (hz : Int) (s : State) : Result :=
  whenConfigured s (.next { s with writeInterval := intervalOf s.tuning.rateTie hz })

/-- `START` with `RUN = 0`: one clock sample to both timestamps, then `RUN <- 1` (44 R236). -/
def startLoop (s : State) : State :=
  { afterClock s with lastFill := clockAnswer s, lastWrite := clockAnswer s, run := true }

/-- `START` (44 R236); while `RUN = 1` it changes nothing and takes no clock sample. -/
def execStart (s : State) : Result :=
  whenConfigured s (.next (if s.run then s else startLoop s))

/-- `STOP`: `RUN <- 0` (44 R237). -/
def execStop (s : State) : Result := whenConfigured s (.next { s with run := false })

/-- `SET_COLOR`: `SOLID_COLOR <- {1, imm[23:0]}` (44 R238). -/
def execSetColor (c : Pixel) (s : State) : Result :=
  whenConfigured s (.next { s with solidValid := true, solidPixel := c })

/-- `CLR_COLOR`: `SOLID_COLOR.valid <- 0`, the pixel kept (44 R239). -/
def execClrColor (s : State) : Result := whenConfigured s (.next { s with solidValid := false })

end Sys2Proof.Machine
end

