-- ==== Sys2Proof/Machine/Stateful.lean ====
section
/-!
DEFINITION. The seven routines with private state (41_modes_stateful R150 to R167): the three position
modes, the decay engine with its three files, and Fire.
-/

namespace Sys2Proof.Machine

/-! ## Position modes -/

/-- `MODE.CHASE` (41 R150): paint at `CHASE_POS`, then advance, wrapping at `NL`. -/
def execModeChase (s : State) : Result :=
  whenConfigured s (.next (withPosition s s.chasePos
    { paintSpot s s.chasePos.toNat with chasePos := nextPosition s s.chasePos }))

/-- The direction of Scanner's next move: it flips on an end index when heading outward (41 R153). -/
def scanDirection (s : State) : Dir :=
  match s.scDir with
  | .up => if s.scPos.toNat = s.numPixels - 1 then .down else .up
  | .down => if s.scPos.toNat = 0 then .up else .down

/-- Scanner's move after painting; with one pixel nothing moves (41 R153). -/
def scanMove (s : State) : State :=
  if s.numPixels > 1 then
    { s with
      scDir := scanDirection s
      scPos := match scanDirection s with
        | .up => s.scPos + 1
        | .down => s.scPos - 1 }
  else s

/-- `MODE.SCANNER` (41 R153). -/
def execModeScanner (s : State) : Result :=
  whenConfigured s (.next (withPosition s s.scPos (scanMove (paintSpot s s.scPos.toNat))))

/-- Meteor's head and trail: `for k = 0 .. METEOR_TRAIL-1`, skipping indices below 0 (41 R156). -/
def paintTrail (trail pos : Nat) (c : Pixel) (m : Memory Pixel) : Memory Pixel :=
  (List.range trail).foldl
    (fun m k => if pos ≥ k then m.write black (pos - k) (scale c (trailWeight trail k)) else m) m

/-- The buffer after a Meteor tick: every pixel dimmed, then the trail painted (41 R156). -/
def meteorBuffer (s : State) : Memory Pixel :=
  paintTrail s.tuning.meteorTrail s.mtPos.toNat (pal s.phase.toNat)
    (s.buf.updateAll black s.numPixels (fun _ c => dim s.tuning.meteorDim c))

/-- `MODE.METEOR` (41 R156). -/
def execModeMeteor (s : State) : Result :=
  whenConfigured s (whenTuned s (.next (withPosition s s.mtPos
    { s with buf := meteorBuffer s, mtPos := nextPosition s s.mtPos })))

/-! ## The decay engine (41 R160) -/

/-- The colour picker `pick` of a decay mode (41 R161 to R163). -/
inductive Pick where
  /-- Twinkle: `PAL[Draw(256)]`. -/
  | anyHue
  /-- Sparkle: `PAL[PHASE]`, no draw. -/
  | phaseHue (phase : Nat)
  /-- Confetti: `PAL[(PHASE + Draw(CF_HUE_SPREAD)) mod 256]`. -/
  | nearPhase (phase spread : Nat)
deriving DecidableEq, Repr

/-- The arguments of `DecayTick` (41 R160). -/
structure DecayArgs where
  den : Nat
  lmin : Nat
  lmax : Nat
  pick : Pick
  fade : Bool
deriving DecidableEq, Repr

/-- What a decay tick reads and writes: its file, the buffer and the random port. -/
structure DecayWork where
  file : DecayFile
  buf : Memory Pixel
  random : Port Nat
deriving DecidableEq, Repr

/-- `pick()`, with the port after its draws (41 R161 to R163). -/
def pickColor (k : Pick) (p : Port Nat) : Pixel × Port Nat :=
  match k with
  | .anyHue => (pal (drawBelow 256 p).1, (drawBelow 256 p).2)
  | .phaseHue phase => (pal phase, p)
  | .nearPhase phase spread => (pal (phase + (drawBelow spread p).1), (drawBelow spread p).2)

/-- `Shade(c, life)` (41 R160). -/
def shade (a : DecayArgs) (c : Pixel) (life : Nat) : Pixel :=
  if a.fade then scale c (min 255 (life * 255 / a.lmax)) else c

/-- A lit pixel: decay, then render; no draw (41 R160). -/
def decayLit (a : DecayArgs) (w : DecayWork) (i : Nat) : DecayWork :=
  let life := w.file.life.read 0#8 i - 1
  { w with
    file := { w.file with life := w.file.life.write 0#8 i life }
    buf := w.buf.write black i
      (if life = 0#8 then black else shade a (w.file.col.read black i) life.toNat) }

/-- A dark pixel that fires: lifetime draw, then the colour's draws (41 R160). The port stands after the
fire draw. -/
def decayFire (a : DecayArgs) (w : DecayWork) (i : Nat) : DecayWork :=
  let l := drawBelow (a.lmax - a.lmin + 1) w.random
  let c := pickColor a.pick l.2
  let life := channel (a.lmin + l.1)
  { file := ⟨w.file.life.write 0#8 i life, w.file.col.write black i c.1⟩
    buf := w.buf.write black i (shade a c.1 life.toNat)
    random := c.2 }

/-- One pixel of `DecayTick` (41 R160). -/
def decayPixel (a : DecayArgs) (w : DecayWork) (i : Nat) : DecayWork :=
  if w.file.life.read 0#8 i ≠ 0#8 then decayLit a w i
  else
    let d := drawBelow a.den w.random
    if d.1 = 0 then decayFire a { w with random := d.2 } i
    else { w with buf := w.buf.write black i black, random := d.2 }

/-- `DecayTick` over a strip of `n` pixels, in ascending order (41 R160, R164). -/
def decayTick (a : DecayArgs) (n : Nat) (w : DecayWork) : DecayWork :=
  (List.range n).foldl (decayPixel a) w

/-- Twinkle's arguments (41 R161). -/
def twinkleArgs (s : State) : DecayArgs :=
  ⟨Config.twDen, s.tuning.twLifeMin, s.tuning.twLifeMax, .anyHue, false⟩

/-- Sparkle's arguments (41 R162). -/
def sparkleArgs (s : State) : DecayArgs :=
  ⟨s.tuning.spDen, s.tuning.spLifeMin, s.tuning.spLifeMax, .phaseHue s.phase.toNat, false⟩

/-- Confetti's arguments (41 R163). -/
def confettiArgs (s : State) : DecayArgs :=
  ⟨s.tuning.cfDen, s.tuning.cfLifeMin, s.tuning.cfLifeMax,
    .nearPhase s.phase.toNat s.tuning.cfHueSpread, true⟩

/-- `MODE.TWINKLE` (41 R161). -/
def execModeTwinkle (s : State) : Result :=
  let w := decayTick (twinkleArgs s) s.numPixels ⟨s.tw, s.buf, s.random⟩
  whenConfigured s (whenTuned s (.next { s with tw := w.file, buf := w.buf, random := w.random }))

/-- `MODE.SPARKLE` (41 R162). -/
def execModeSparkle (s : State) : Result :=
  let w := decayTick (sparkleArgs s) s.numPixels ⟨s.sp, s.buf, s.random⟩
  whenConfigured s (whenTuned s (.next { s with sp := w.file, buf := w.buf, random := w.random }))

/-- `MODE.CONFETTI` (41 R163). -/
def execModeConfetti (s : State) : Result :=
  let w := decayTick (confettiArgs s) s.numPixels ⟨s.cf, s.buf, s.random⟩
  whenConfigured s (whenTuned s (.next { s with cf := w.file, buf := w.buf, random := w.random }))

/-! ## Fire (41 R166) -/

/-- What Fire's two heat phases read and write. -/
structure HeatWork where
  heat : Memory Byte
  random : Port Nat
deriving DecidableEq, Repr

/-- Cool one pixel, saturating at 0 (41 R166). -/
def coolPixel (coolMax : Nat) (w : HeatWork) (i : Nat) : HeatWork :=
  let d := drawBelow (coolMax + 1) w.random
  ⟨w.heat.write 0#8 i (channel ((w.heat.read 0#8 i).toNat - d.1)), d.2⟩

/-- Cool every pixel, ascending (41 R166). -/
def coolAll (coolMax n : Nat) (w : HeatWork) : HeatWork :=
  (List.range n).foldl (coolPixel coolMax) w

/-- Reheat one random pixel, saturating at 255 (41 R166). -/
def reheat (heatMin heatMax n : Nat) (w : HeatWork) : HeatWork :=
  let j := drawBelow n w.random
  let h := drawBelow (heatMax - heatMin + 1) j.2
  ⟨w.heat.write 0#8 j.1 (channel (min 255 ((w.heat.read 0#8 j.1).toNat + (heatMin + h.1)))), h.2⟩

/-- The heat and the random port after a Fire tick (41 R166). -/
def fireHeat (s : State) : HeatWork :=
  reheat s.tuning.fireHeatMin s.tuning.fireHeatMax s.numPixels
    (coolAll s.tuning.fireCoolMax s.numPixels ⟨s.heat, s.random⟩)

/-- `MODE.FIRE` (41 R166). `Draw(NL)` needs a pixel: `NUM_LEDS = 0` with `CFG_ERR = 0`, which 10_state R43
excludes, is refused (log 17). -/
def execModeFire (s : State) : Result :=
  let w := fireHeat s
  whenConfigured s (whenTuned s (
    if s.numPixels = 0 then .refused .drawWithNoChoice
    else .next (paintStrip { s with heat := w.heat, random := w.random }
      (fun i => heatColor (w.heat.read 0#8 i).toNat))))

end Sys2Proof.Machine
end

