-- ==== Sys2Proof/Machine/Stateless.lean ====
section
/-!
DEFINITION. The ten routines without private state (40_modes_stateless R121 to R130). Each paints every
pixel and writes nothing else (R120).
-/

namespace Sys2Proof.Machine

/-- `MODE.RAINBOW` (40 R121). -/
def execModeRainbow (s : State) : Result := whenConfigured s (.next (paintRainbow s))

/-- `MODE.SOLID` (40 R122). -/
def execModeSolid (s : State) : Result :=
  whenConfigured s (.next (paintStrip s (fun _ => solidColor s)))

/-- `MODE.PRIMARY_CYCLE` (40 R123). -/
def execModePrimaryCycle (s : State) : Result :=
  whenConfigured s (.next (paintStrip s (fun _ => primaryColor s.phase.toNat)))

/-- `MODE.RANDOM_FLASH`: one draw of a pixel word for the whole strip (40 R124). -/
def execModeRandomFlash (s : State) : Result :=
  let d := drawBelow (2 ^ 24) s.random
  let c := unpackPixel (BitVec.ofNat 24 d.1)
  whenConfigured s (.next (paintStrip { s with random := d.2 } (fun _ => c)))

/-- `MODE.BREATHING` (40 R125). -/
def execModeBreathing (s : State) : Result :=
  let c := scale (pal s.phase.toNat) (breathingEnvelope s.phase.toNat)
  whenConfigured s (.next (paintStrip s (fun _ => c)))

/-- `MODE.COLOR_WIPE` (40 R126). -/
def execModeColorWipe (s : State) : Result :=
  whenConfigured s (.next (paintStrip s
    (fun i => if i ≤ wipeBoundary s then pal s.phase.toNat else black)))

/-- `MODE.GRADIENT` (40 R127). -/
def execModeGradient (s : State) : Result :=
  whenConfigured s (whenTuned s (.next (paintStrip s (fun i => pal (gradientIndex s i)))))

/-- `MODE.THEATER_CHASE` (40 R128). -/
def execModeTheaterChase (s : State) : Result :=
  whenConfigured s (.next (paintStrip s
    (fun i => if (i + s.phase.toNat) % 3 = 0 then pal s.phase.toNat else black)))

/-- `MODE.STROBE` (40 R129). -/
def execModeStrobe (s : State) : Result :=
  whenConfigured s (whenTuned s (.next (paintStrip s (fun _ => strobeColor s))))

/-- `MODE.PULSE` (40 R130). -/
def execModePulse (s : State) : Result :=
  let c := scale (pal s.phase.toNat) (pulseEnvelope s.tuning.pulsePeriod s.phase.toNat)
  whenConfigured s (whenTuned s (.next (paintStrip s (fun _ => c))))

end Sys2Proof.Machine
end

