-- ==== Sys2Proof/Machine/Scheduler.lean ====
section
/-!
DEFINITION. The scheduler (43_scheduler): the fill tick, the write tick and the four stage steps, each one
atomic step (60_exceptions R275).
-/

namespace Sys2Proof.Machine

/-- `Render(m)` with the recovery of 60_exceptions R263: the meaning of the routine's instruction
(42_mode_registry R193). -/
def runRoutine (m : ModeId) (s : State) : Result :=
  match m with
  | .rainbow => execModeRainbow s
  | .solid => execModeSolid s
  | .primaryCycle => execModePrimaryCycle s
  | .randomFlash => execModeRandomFlash s
  | .chase => execModeChase s
  | .breathing => execModeBreathing s
  | .colorWipe => execModeColorWipe s
  | .gradient => execModeGradient s
  | .theaterChase => execModeTheaterChase s
  | .twinkle => execModeTwinkle s
  | .sparkle => execModeSparkle s
  | .meteor => execModeMeteor s
  | .strobe => execModeStrobe s
  | .scanner => execModeScanner s
  | .confetti => execModeConfetti s
  | .fire => execModeFire s
  | .pulse => execModePulse s

/-- Go on from a next state; a stop stays a stop. -/
def thenNext (r : Result) (f : State → State) : Result :=
  match r with
  | .next s => .next (f s)
  | .fault e => .fault e
  | .refused e => .refused e

/-- The end of a fill tick: `PHASE <- (PHASE + SPEED) mod 256`, `LAST_FILL <- NOW` (43 R207). -/
def finishFill (s : State) : State := { s with phase := s.phase + s.speed, lastFill := s.now }

/-- `FillTick()` (43 R207). -/
def fillTick (s : State) : Result := thenNext (runRoutine (routineOf s.mode) s) finishFill

/-- The frame a write tick hands over (20_memory R67, 30_encoding R99). -/
def frameOf (s : State) : Frame := ⟨s.brightness, s.buf.snapshot black s.numPixels⟩

/-- The frame as the write port carries it: `BRIGHTNESS`, then the format P words, element 0 first (30_encoding
R90, R99). -/
def frameWords (f : Frame) : BitVec 7 × List (BitVec 24) := (f.brightness, f.pixels.map packPixel)

/-- `if st = FAIL: Log(LOG_WRITE_FAIL, 0)` (43 R208). -/
def logStatus (s : State) (st : WriteStatus) : State :=
  match st with
  | .ok => s
  | .fail => emitLog s logWriteFail 0

/-- `WriteTick()` (43 R208): `PENDING` is set, the frame handed over, a failure logged, `PENDING` cleared
and `LAST_WRITE` set, all in one step. -/
def writeTick (s : State) : State :=
  let marked := { s with pending := true }
  let sent := logStatus (handOver marked (frameOf marked)) (writeAnswer marked)
  { sent with pending := false, lastWrite := sent.now }

/-- `STAGE.IDLE` (43 R201). With `RUN = 0` the agent is held: the step changes nothing (log 7). -/
def execStageIdle (s : State) : Result :=
  whenConfigured s (.next (if s.run then { s with stage := .fill } else s))

/-- `NOW <- ClockSample()` (43 R202). -/
def sampleNow (s : State) : State := { afterClock s with now := clockAnswer s }

/-- Stage FILL after the clock sample: the stop test, the fill gate, the fill tick (43 R202). -/
def fillGate (s : State) : Result :=
  if s.run then
    if fillDue s then thenNext (fillTick s) (fun t => { t with stage := .write })
    else .next { s with stage := .write }
  else .next { s with stage := .idle }

/-- `STAGE.FILL` (43 R202). -/
def execStageFill (s : State) : Result := whenConfigured s (fillGate (sampleNow s))

/-- `STAGE.WRITE` (43 R204). -/
def execStageWrite (s : State) : Result :=
  whenConfigured s (.next { (if writeDue s then writeTick s else s) with stage := .yield })

/-- `STAGE.YIELD` (43 R205). -/
def execStageYield (s : State) : Result := whenConfigured s (.next { s with stage := .fill })

end Sys2Proof.Machine
end

