-- ==== Sys2Proof/Machine/Dispatch.lean ====
section
/-!
DEFINITION. One arm per instruction.
-/

namespace Sys2Proof.Machine

def exec (i : Instr) (s : State) : Host.Outcome State Fault Refusal :=
  match i with
  | .setMode n => Sys2Proof.Machine.execSetMode n s
  | .setSpeed step => Sys2Proof.Machine.execSetSpeed step s
  | .setFillRate hz => Sys2Proof.Machine.execSetFillRate hz s
  | .setWriteRate hz => Sys2Proof.Machine.execSetWriteRate hz s
  | .start => Sys2Proof.Machine.execStart s
  | .stop => Sys2Proof.Machine.execStop s
  | .setColor c => Sys2Proof.Machine.execSetColor c s
  | .clrColor => Sys2Proof.Machine.execClrColor s
  | .modeRainbow => Sys2Proof.Machine.execModeRainbow s
  | .modeSolid => Sys2Proof.Machine.execModeSolid s
  | .modePrimaryCycle => Sys2Proof.Machine.execModePrimaryCycle s
  | .modeRandomFlash => Sys2Proof.Machine.execModeRandomFlash s
  | .modeChase => Sys2Proof.Machine.execModeChase s
  | .modeBreathing => Sys2Proof.Machine.execModeBreathing s
  | .modeColorWipe => Sys2Proof.Machine.execModeColorWipe s
  | .modeGradient => Sys2Proof.Machine.execModeGradient s
  | .modeTheaterChase => Sys2Proof.Machine.execModeTheaterChase s
  | .modeTwinkle => Sys2Proof.Machine.execModeTwinkle s
  | .modeSparkle => Sys2Proof.Machine.execModeSparkle s
  | .modeMeteor => Sys2Proof.Machine.execModeMeteor s
  | .modeStrobe => Sys2Proof.Machine.execModeStrobe s
  | .modeScanner => Sys2Proof.Machine.execModeScanner s
  | .modeConfetti => Sys2Proof.Machine.execModeConfetti s
  | .modeFire => Sys2Proof.Machine.execModeFire s
  | .modePulse => Sys2Proof.Machine.execModePulse s
  | .stageIdle => Sys2Proof.Machine.execStageIdle s
  | .stageFill => Sys2Proof.Machine.execStageFill s
  | .stageWrite => Sys2Proof.Machine.execStageWrite s
  | .stageYield => Sys2Proof.Machine.execStageYield s

end Sys2Proof.Machine
end

