-- ==== Sys2Proof/Machine/Fetch.lean ====
section
/-!
DEFINITION. Which move the machine makes next (60_exceptions R275) and where the moving instruction comes
from: the command port, `STAGE`, or, inside a fill tick, `MODE` (log 6, 13). Also how an instruction is
placed so that the next step runs it.
-/

namespace Sys2Proof.Machine

/-- The next move of the machine. -/
inductive Move where
  /-- The environment resets the block with these parameters. -/
  | reset (c : Construction) (s : State)
  /-- The host issues this command word. -/
  | command (w : BitVec 32) (s : State)
  /-- The scheduler takes the step `STAGE` names. -/
  | stage (s : State)
  /-- `CFG_ERR = 1` and no reset waits: nothing can move. -/
  | held
deriving DecidableEq, Repr

/-- Something other than the scheduler could move: there is a choice to make (60 R275). -/
def contended (s : State) : Bool := !s.commands.isEmpty || !s.resets.isEmpty

/-- Who moves: the scheduler when nothing waits, else the free choice (60 R275; log 6). -/
def turnOf (s : State) : Turn :=
  if contended s then s.turns.answer Config.freeTurn else .scheduler

/-- The state after that choice. -/
def afterTurn (s : State) : State :=
  if contended s then { s with turns := s.turns.advance } else s

/-- The next move. While `CFG_ERR = 1` only a reset moves (60 R261). A turn of the host or of the reset
port with nothing waiting there falls to the scheduler. -/
def nextMove (s : State) : Move :=
  if s.cfgErr then
    match s.resets with
    | c :: rest => .reset c { s with resets := rest }
    | [] => .held
  else
    match turnOf s, s.resets, s.commands with
    | .reset, c :: rest, _ => .reset c { afterTurn s with resets := rest }
    | .host, _, w :: rest => .command w { afterTurn s with commands := rest }
    | _, _, _ => .stage (afterTurn s)

/-- Execute a command word: the instruction it decodes to; a reserved word is refused (30_encoding R93,
93 U1; log 10). -/
def runCommand (w : BitVec 32) (s : State) : Result :=
  match decodeCommand w with
  | .ok i => exec i s
  | .error _ => .refused (.reservedCommand w)

/-- Take the scheduler step that `STAGE` names (43_scheduler R200). -/
def runStage (s : State) : Result := exec (decodeStage (stageCodeOf s.stage)) s

/-- Make a move. -/
def runMove (m : Move) : Result :=
  match m with
  | .reset c s => performReset c s
  | .command w s => runCommand w s
  | .stage s => runStage s
  | .held => .fault .configError

/-- Let this turn be taken next, where there is a choice. -/
def withTurn (s : State) (t : Turn) : State :=
  if contended s then { s with turns := s.turns.push t } else s

/-- Put a command word in front of the command port, to be issued next. -/
def placeCommand (s : State) (w : BitVec 32) : State :=
  withTurn { s with commands := w :: s.commands } .host

/-- Put a stage code into `STAGE`, the scheduler to move next. -/
def placeStage (s : State) (c : BitVec 2) : State :=
  withTurn { s with stage := stageOfCode c } .scheduler

/-- Put a mode number into `MODE` and let the next step be a fill tick: stage FILL, `RUN = 1`, and a clock
answer at which the fill gate is due (log 13). -/
def placeMode (s : State) (n : BitVec 8) : State :=
  withTurn
    { s with
      mode := n
      stage := .fill
      run := true
      clock := s.clock.push (s.lastFill + s.fillInterval.setWidth 32) } .scheduler

/-- Place an encoded instruction where the next step takes it from. -/
def placeEncoding (s : State) (e : Encoding) : State :=
  match e with
  | .command w => placeCommand s w
  | .modeNumber n => placeMode s n
  | .stageCode c => placeStage s c

end Sys2Proof.Machine
end

