-- ==== Sys2Proof/Machine/Step.lean ====
section
/-!
DEFINITION. One step of the machine, and where an instruction is placed so that the next step runs it.
-/

namespace Sys2Proof.Machine

/-- One atomic step: one scheduler step, one host command or one reset (60_exceptions R275). -/
def step (s : State) : Host.Outcome State Fault Refusal := runMove (nextMove s)

/-- `s` with the opcode-table word `w` of `nbits` bits placed where the next step takes its instruction
from; no change for a width no row has (log 13). -/
def State.withFetchWord (s : State) (nbits w : Nat) : State :=
  match tableEncoding nbits w with
  | some e => placeEncoding s e
  | none => s

end Sys2Proof.Machine
end

