-- ==== Sys2Proof/Machine/Assembler.lean ====
section
/-!
DEFINITION. The text form of commands (30_encoding R100, R101). The assembler stands outside the block: no
step calls it. Points R100 leaves open (spaces, an operand missing) are in log 22.
-/

namespace Sys2Proof.Machine

/-- Why a line is no command: an assembler error, not a word (30_encoding R100). -/
inductive AsmError where
  /-- The mnemonic is none of R100 and R101. -/
  | unknownOperation
  /-- An operand is missing, superfluous or malformed. -/
  | badOperand
  /-- An integer operand is outside its stated range. -/
  | outOfRange
deriving DecidableEq, Repr

/-- The seventeen registry names (30_encoding R94). -/
def registryNames : List (String × ModeId) :=
  [("rainbow", .rainbow), ("solid", .solid), ("primary_cycle", .primaryCycle),
   ("random_flash", .randomFlash), ("chase", .chase), ("breathing", .breathing),
   ("color_wipe", .colorWipe), ("gradient", .gradient), ("theater_chase", .theaterChase)] ++
  [("twinkle", .twinkle), ("sparkle", .sparkle), ("meteor", .meteor), ("strobe", .strobe),
   ("scanner", .scanner), ("confetti", .confetti), ("fire", .fire), ("pulse", .pulse)]

/-- `number(<name>)`: 0xFF for a name that is not registered; names compare exactly (30_encoding R100). -/
def nameNumber (name : List Char) : BitVec 8 :=
  match registryNames.find? (fun e => decide (e.1.toList = name)) with
  | some e => numberOfMode e.2
  | none => 0xFF

/-- The value of a decimal digit. -/
def decDigit (c : Char) : Option Nat :=
  if '0'.toNat ≤ c.toNat ∧ c.toNat ≤ '9'.toNat then some (c.toNat - '0'.toNat) else none

/-- The value of a hexadecimal digit, of either case. -/
def hexDigit (c : Char) : Option Nat :=
  match decDigit c with
  | some d => some d
  | none =>
    if 'a'.toNat ≤ c.toNat ∧ c.toNat ≤ 'f'.toNat then some (c.toNat - 'a'.toNat + 10)
    else if 'A'.toNat ≤ c.toNat ∧ c.toNat ≤ 'F'.toNat then some (c.toNat - 'A'.toNat + 10)
    else none

/-- The number a run of digits spells, after the digits already read. -/
def digitsFrom (digit : Char → Option Nat) (base : Nat) : Nat → List Char → Option Nat
  | acc, [] => some acc
  | acc, c :: cs =>
    match digit c with
    | some d => digitsFrom digit base (acc * base + d) cs
    | none => none

/-- A run of at least one digit. -/
def digits (digit : Char → Option Nat) (base : Nat) (cs : List Char) : Option Nat :=
  match cs with
  | [] => none
  | _ :: _ => digitsFrom digit base 0 cs

/-- Integers: decimal with an optional minus sign, or `0x` hexadecimal (30_encoding R100). -/
def parseInt (cs : List Char) : Option Int :=
  match cs with
  | '-' :: rest => (digits decDigit 10 rest).map (fun n => -(n : Int))
  | '0' :: 'x' :: rest => (digits hexDigit 16 rest).map (fun n => (n : Int))
  | _ => (digits decDigit 10 cs).map (fun n => (n : Int))

/-- Split at every character that `sep` accepts; the field being read is kept reversed. -/
def splitAt (sep : Char → Bool) : List Char → List Char → List (List Char)
  | cur, [] => [cur.reverse]
  | cur, c :: cs => if sep c then cur.reverse :: splitAt sep [] cs else splitAt sep (c :: cur) cs

/-- The words of a line, its comment left out. -/
def lineWords (line : List Char) : List (List Char) :=
  (splitAt (fun c => decide (c = ' ' ∨ c = '\t')) [] (line.takeWhile (fun c => decide (c ≠ '#')))).filter
    (fun w => !w.isEmpty)

/-- An integer operand within a range. -/
def ranged (lo hi : Int) (cs : List Char) : Except AsmError Int :=
  match parseInt cs with
  | none => .error .badOperand
  | some z => if lo ≤ z ∧ z ≤ hi then .ok z else .error .outOfRange

/-- The operand of `set_mode` and `select`: an integer 0..255, or a name (30_encoding R100, R101). -/
def modeOperand (cs : List Char) : Except AsmError (BitVec 8) :=
  match parseInt cs with
  | some z => if 0 ≤ z ∧ z ≤ 255 then .ok (BitVec.ofInt 8 z) else .error .outOfRange
  | none => .ok (nameNumber cs)

/-- An operand of the shape `int24` (30_encoding R100). -/
def int24Operand (cs : List Char) : Except AsmError Int := ranged (-8388608) 8388607 cs

/-- The operand of `set_color`: three integers 0..255 between commas (30_encoding R100). -/
def colorOperand (cs : List Char) : Except AsmError Pixel :=
  match splitAt (fun c => decide (c = ',')) [] cs with
  | [r, g, b] =>
    match ranged 0 255 r, ranged 0 255 g, ranged 0 255 b with
    | .ok r, .ok g, .ok b => .ok ⟨BitVec.ofInt 8 r, BitVec.ofInt 8 g, BitVec.ofInt 8 b⟩
    | .error e, _, _ => .error e
    | _, .error e, _ => .error e
    | _, _, .error e => .error e
  | _ => .error .badOperand

/-- One line: no command, or the command it spells (30_encoding R100, R101). -/
def assembleInstr (line : List Char) : Except AsmError (Option Instr) :=
  match (lineWords line).map String.ofList with
  | [] => .ok none
  | ["start"] => .ok (some .start)
  | ["stop"] => .ok (some .stop)
  | ["clr_color"] => .ok (some .clrColor)
  | ["set_mode", x] => (modeOperand x.toList).map (fun n => some (.setMode n))
  | ["select", x] => (modeOperand x.toList).map (fun n => some (.setMode n))
  | ["set_speed", x] => (int24Operand x.toList).map (fun z => some (.setSpeed z))
  | ["set_fill_rate", x] => (int24Operand x.toList).map (fun z => some (.setFillRate z))
  | ["set_write_rate", x] => (int24Operand x.toList).map (fun z => some (.setWriteRate z))
  | ["set_color", x] => (colorOperand x.toList).map (fun c => some (.setColor c))
  | op :: _ =>
    if op ∈ ["start", "stop", "clr_color", "set_mode", "select", "set_speed", "set_fill_rate",
      "set_write_rate", "set_color"] then .error .badOperand else .error .unknownOperation

/-- The encoding of one line of text, if it spells a command (30_encoding R100). -/
def assemble (line : String) : Except AsmError (Option Encoding) :=
  (assembleInstr line.toList).map (fun o => o.map encode)

end Sys2Proof.Machine
end

