-- ==== Sys2Proof/Machine/StatusPort.lean ====
section
/-!
DEFINITION. The status port (10_state R41, 20_memory R60): what the host reads between two steps. It has no
side effect, so it is a function of the state and no step (log 19).
-/

namespace Sys2Proof.Machine

/-- The address spaces of 20_memory R60. -/
inductive Space where
  | pal
  | buf
  | twLife
  | spLife
  | cfLife
  | heat
  | twCol
  | spCol
  | cfCol
  | cr
deriving DecidableEq, Repr

/-- `SOLID_COLOR`: bit 24 valid, bits 23:0 the pixel (10_state R28, R41). -/
def solidWord (s : State) : BitVec 32 :=
  BitVec.ofNat 32 (bit s.solidValid * 2 ^ 24 + (packPixel s.solidPixel).toNat)

/-- The control register of a number, zero-extended to 32 bits; a number not listed reads as 0
(10_state R41). -/
def readRegister (s : State) (number : Nat) : BitVec 32 :=
  match number with
  | 0x00 => s.numLeds.setWidth 32
  | 0x01 => s.brightness.setWidth 32
  | 0x02 => statusWord s
  | 0x03 => s.mode.setWidth 32
  | 0x04 => s.phase.setWidth 32
  | 0x05 => s.speed.setWidth 32
  | 0x06 => s.fillInterval.setWidth 32
  | 0x07 => s.writeInterval.setWidth 32
  | 0x08 => s.lastFill
  | 0x09 => s.lastWrite
  | 0x0A => s.now
  | 0x0B => solidWord s
  | 0x10 => s.chasePos.setWidth 32
  | 0x11 => s.scPos.setWidth 32
  | 0x12 => BitVec.ofNat 32 (dirBit s.scDir)
  | 0x13 => s.mtPos.setWidth 32
  | _ => 0

/-- A byte element, within the strip. -/
def readByte (s : State) (m : Memory Byte) (i : Nat) : Option (BitVec 32) :=
  if i < s.numPixels then some ((m.read 0#8 i).setWidth 32) else none

/-- A pixel element as a pixel word, within the strip. -/
def readPixel (s : State) (m : Memory Pixel) (i : Nat) : Option (BitVec 32) :=
  if i < s.numPixels then some ((packPixel (m.read black i)).setWidth 32) else none

/-- What the status port answers for a space and an index. A `PAL` index is reduced modulo 256, so it is always
in range, and `CR` reads 0 under a number not listed; the other spaces have no value beyond the strip
(20_memory R60, R63, R65; 10_state R41; log 19). -/
def readSpace (s : State) (space : Space) (i : Nat) : Option (BitVec 32) :=
  match space with
  | .pal => some ((packPixel (pal i)).setWidth 32)
  | .buf => readPixel s s.buf i
  | .twLife => readByte s s.tw.life i
  | .spLife => readByte s s.sp.life i
  | .cfLife => readByte s s.cf.life i
  | .heat => readByte s s.heat i
  | .twCol => readPixel s s.tw.col i
  | .spCol => readPixel s s.sp.col i
  | .cfCol => readPixel s s.cf.col i
  | .cr => some (readRegister s i)

end Sys2Proof.Machine
end

