-- ==== Sys2Proof/Safety.lean ====
section
/-!
DEFINITION. What a good state is (10_state R43), the clock premise of claims about time (60_exceptions
R277), and the terms the statements use: a painted strip, the draws of a tick, a tick of a decay file.
-/

namespace Sys2Proof.Machine

/-- A byte memory holds only elements of the strip, in canonical form (20_memory R65). -/
def State.byteMemoryOk (s : State) (m : Memory Byte) : Bool := m.wf 0#8 && m.below s.numPixels

/-- A pixel memory holds only elements of the strip, in canonical form (20_memory R65). -/
def State.pixelMemoryOk (s : State) (m : Memory Pixel) : Bool := m.wf black && m.below s.numPixels

/-- A decay file is in form. -/
def State.fileOk (s : State) (f : DecayFile) : Bool := s.byteMemoryOk f.life && s.pixelMemoryOk f.col

/-- The invariants of 10_state R43. The positions are below `NUM_LEDS` unless `CFG_ERR = 1`, where no
position below 0 exists (log 18). Legal parameters (00_scope R5, R7) and the form of the memories are
added. -/
structure State.Inv (s : State) : Prop where
  configured : s.cfgErr = decide (s.numLeds = 0)
  brightness : s.brightness.toNat ≤ 100
  tuning : tuningLegal s.tuning = true
  fillInterval : 1 ≤ s.fillInterval.toNat ∧ s.fillInterval.toNat ≤ 1000
  writeInterval : 1 ≤ s.writeInterval.toNat ∧ s.writeInterval.toNat ≤ 1000
  mode : s.mode.toNat ≤ 16
  chasePos : s.cfgErr = false → s.chasePos.toNat < s.numPixels
  scPos : s.cfgErr = false → s.scPos.toNat < s.numPixels
  mtPos : s.cfgErr = false → s.mtPos.toNat < s.numPixels
  pending : s.pending = false
  buf : s.pixelMemoryOk s.buf = true
  tw : s.fileOk s.tw = true
  sp : s.fileOk s.sp = true
  cf : s.fileOk s.cf = true
  heat : s.byteMemoryOk s.heat = true

/-- The clock did not appear to run backwards between two samples (60_exceptions R277). A premise for
claims about time; the machine does not check it. -/
def clockForward (earlier later : BitVec 32) : Prop := elapsed later earlier < 2 ^ 31

/-- `n` fill ticks, one after another; the first stop ends them. -/
def fillTicks : Nat → State → Result
  | 0, s => .next s
  | n + 1, s =>
    match fillTick s with
    | .next t => fillTicks n t
    | .fault e => .fault e
    | .refused e => .refused e

/-! ## Terms of the statements -/

/-- `t`'s buffer shows `f` on every pixel of the strip and is `s`'s buffer beyond it. -/
def Painted (s t : State) (f : Nat → Pixel) : Prop :=
  ∀ i, t.buf.read black i = if i < s.numPixels then f i else s.buf.read black i

/-- `t` differs from `s` in `BUF` at most. -/
def OnlyBuf (s t : State) : Prop := { t with buf := s.buf } = s

/-- The number the `j`-th draw from here on is taken from (60_exceptions R278): the `j`-th answer laid out,
or a free one. -/
def drawnNumber (p : Port Nat) (j : Nat) : Nat :=
  (p.script.drop j).headD (Config.freeDraw (p.count + j))

/-- The random port after `j` draws. -/
def afterDraws (p : Port Nat) (j : Nat) : Port Nat := ⟨p.script.drop j, p.count + j⟩

/-- How many draws a decay tick makes before it reaches pixel `i`: none for a lit pixel, one for a dark
pixel that does not fire, `perFire` for one that does (41_modes_stateful R160). -/
def decayDraws (life : Nat → Byte) (ans : Nat → Nat) (den perFire : Nat) : Nat → Nat
  | 0 => 0
  | i + 1 =>
    let k := decayDraws life ans den perFire i
    if life i ≠ 0#8 then k else if ans k % den = 0 then k + perFire else k + 1

/-- What a decay tick does to one pixel of a file `f`, giving `g` and the shown colour `c`, where the
pixel's first draw is number `k` (41_modes_stateful R160): `hue` is the colour a firing pixel takes from
its third draw, `shown` the colour shown for a stored colour and a lifetime. -/
def DecayedPixel (f g : DecayFile) (c : Pixel) (ans : Nat → Nat) (k den lmin lmax : Nat)
    (hue : Nat → Pixel) (shown : Pixel → Nat → Pixel) (i : Nat) : Prop :=
  let old := f.life.read 0#8 i
  let life := g.life.read 0#8 i
  let col := g.col.read black i
  if old ≠ 0#8 then
    life.toNat + 1 = old.toNat ∧ col = f.col.read black i ∧
      c = if life = 0#8 then black else shown col life.toNat
  else if ans k % den = 0 then
    life.toNat = lmin + ans (k + 1) % (lmax - lmin + 1) ∧ col = hue (ans (k + 2)) ∧
      c = shown col life.toNat
  else life = 0#8 ∧ col = f.col.read black i ∧ c = black

/-- A whole decay tick from `s` to `t` on the file `f`, giving `g` (41_modes_stateful R160): every pixel of
the strip as `DecayedPixel` says, in ascending order of draws; nothing beyond the strip; the random port
after exactly the draws made. -/
def DecayTicked (s t : State) (f g : DecayFile) (den lmin lmax perFire : Nat) (hue : Nat → Pixel)
    (shown : Pixel → Nat → Pixel) : Prop :=
  let ans := drawnNumber s.random
  let before := decayDraws (fun i => f.life.read 0#8 i) ans den perFire
  (∀ i, i < s.numPixels →
    DecayedPixel f g (t.buf.read black i) ans (before i) den lmin lmax hue shown i) ∧
  (∀ i, s.numPixels ≤ i → g.life.read 0#8 i = f.life.read 0#8 i ∧
    g.col.read black i = f.col.read black i ∧ t.buf.read black i = s.buf.read black i) ∧
  t.random = afterDraws s.random (before s.numPixels)

/-- The heat of pixel `i` after Fire's cooling (41_modes_stateful R166): draw `i` of the tick, saturating
at 0. -/
def cooledHeat (s : State) (i : Nat) : Nat :=
  (s.heat.read 0#8 i).toNat - drawnNumber s.random i % (s.tuning.fireCoolMax + 1)

/-- An instruction runs a routine: it is the routine's instruction, or stage FILL with that routine
selected (42_mode_registry R193, 43_scheduler R207). -/
def MayRun (i : Instr) (s : State) (m : ModeId) : Prop :=
  i = instrOfMode m ∨ (i = .stageFill ∧ routineOf s.mode = m)

/-- A cause of `ModeFault` holds on entry to a routine: a position register not below `NUM_LEDS`; the other
fourteen routines never fault (60_exceptions R262). -/
def modeFaults (m : ModeId) (s : State) : Bool :=
  match m with
  | .chase => decide (s.numPixels ≤ s.chasePos.toNat)
  | .scanner => decide (s.numPixels ≤ s.scPos.toNat)
  | .meteor => decide (s.numPixels ≤ s.mtPos.toNat)
  | _ => false

/-- The routines that make `Draw` requests (60_exceptions R278). -/
def drawsNumbers (m : ModeId) : Bool :=
  match m with
  | .randomFlash | .twinkle | .sparkle | .confetti | .fire => true
  | _ => false

/-- Two states agree on a routine's own private registers (10_state R35 to R39). -/
def SamePrivate (m : ModeId) (s t : State) : Prop :=
  match m with
  | .chase => t.chasePos = s.chasePos
  | .scanner => t.scPos = s.scPos ∧ t.scDir = s.scDir
  | .meteor => t.mtPos = s.mtPos
  | .twinkle => t.tw = s.tw
  | .sparkle => t.sp = s.sp
  | .confetti => t.cf = s.cf
  | .fire => t.heat = s.heat
  | _ => True

/-- Two states agree on all that a routine reads (40_modes_stateless R120): `PHASE`, `NUM_LEDS`, the answers to
its draws, the tuning parameters, which are parameters of the step and no state (00_scope R13), its own private
registers, `SOLID_COLOR` for Solid and `BUF` for Meteor. -/
structure SameInputs (m : ModeId) (s t : State) : Prop where
  phase : t.phase = s.phase
  numLeds : t.numLeds = s.numLeds
  random : t.random = s.random
  tuning : t.tuning = s.tuning
  own : SamePrivate m s t
  solid : m = .solid → t.solidValid = s.solidValid ∧ t.solidPixel = s.solidPixel
  buf : m = .meteor → t.buf = s.buf

/-- What keeps a run going: no configuration error, legal parameters, a pixel, no reset waiting and only words
waiting that are commands (00_scope R15, 60_exceptions R260, R280). -/
structure State.Live (s : State) : Prop where
  configured : s.cfgErr = false
  tuning : tuningLegal s.tuning = true
  pixel : 0 < s.numPixels
  noReset : s.resets = []
  commands : ∀ w, w ∈ s.commands → ∃ i, decodeCommand w = .ok i

/-- The next move is the host's, with a word that decodes to this command. -/
def HostIssues (s : State) (i : Instr) : Prop :=
  turnOf s = .host ∧ ∃ w rest, s.commands = w :: rest ∧ decodeCommand w = .ok i

end Sys2Proof.Machine
end

