-- ==== Sys2Proof/Certificates/Slice0/Obligations.lean ====
section
/-!
DEFINITION. The statements for the provers. Each docstring names the rule of spec/ it formalises; OBLIGATIONS.json
lists them.
-/

open Sys2Proof Sys2Proof.Machine

/-! ## Encodings -/

/-- Every well-formed instruction's encoding decodes to it (30_encoding R90 to R92, R94, R97). -/
def Obligations.DecodeOfEncodeIsTheInstruction : Prop :=
  ∀ i : Instr, i.wellFormed = true → decode (encode i) = .ok i

/-- A command word that decodes is the encoding of what it decodes to, which is well formed: each accepted
word has one meaning (30_encoding R92). -/
def Obligations.DecodedCommandEncodesBack : Prop :=
  ∀ (w : BitVec 32) (i : Instr), decodeCommand w = .ok i → i.wellFormed = true ∧ encode i = .command w

/-- A word is the command of a row of 30_encoding R92 iff it matches the row under its mask, with the operand
assembled as R91 says; a word that matches no row is reserved, and no other is (R93). -/
def Obligations.EachCommandRowDecodesItsWords : Prop :=
  ∀ w : BitVec 32,
    (w &&& 0xFFFFFF00 = 0x01000000 ↔ decodeCommand w = .ok (.setMode (w.extractLsb' 0 8))) ∧
    (w &&& 0xFF000000 = 0x02000000 ↔ decodeCommand w = .ok (.setSpeed (w.extractLsb' 0 24).toInt)) ∧
    (w &&& 0xFF000000 = 0x03000000 ↔ decodeCommand w = .ok (.setFillRate (w.extractLsb' 0 24).toInt)) ∧
    (w &&& 0xFF000000 = 0x04000000 ↔ decodeCommand w = .ok (.setWriteRate (w.extractLsb' 0 24).toInt)) ∧
    (w = 0x05000000 ↔ decodeCommand w = .ok .start) ∧
    (w = 0x06000000 ↔ decodeCommand w = .ok .stop) ∧
    (w &&& 0xFF000000 = 0x07000000 ↔ decodeCommand w =
      .ok (.setColor ⟨w.extractLsb' 16 8, w.extractLsb' 8 8, w.extractLsb' 0 8⟩)) ∧
    (w = 0x08000000 ↔ decodeCommand w = .ok .clrColor) ∧
    (decodeCommand w = .error (.reservedCommand w) ↔
      ¬ (w &&& 0xFFFFFF00 = 0x01000000 ∨ w &&& 0xFF000000 = 0x02000000 ∨ w &&& 0xFF000000 = 0x03000000 ∨
        w &&& 0xFF000000 = 0x04000000 ∨ w = 0x05000000 ∨ w = 0x06000000 ∨
        w &&& 0xFF000000 = 0x07000000 ∨ w = 0x08000000))

/-- The worked encodings of 30_encoding R102, from text to word. -/
def Obligations.WorkedEncodingsAssemble : Prop :=
  assemble "set_mode rainbow" = .ok (some (.command 0x01000000)) ∧
  assemble "set_mode chase" = .ok (some (.command 0x01000004)) ∧
  assemble "set_mode nonexistent-mode-xyz" = .ok (some (.command 0x010000FF)) ∧
  assemble "set_speed 1" = .ok (some (.command 0x02000001)) ∧
  assemble "set_speed -1" = .ok (some (.command 0x02FFFFFF)) ∧
  assemble "set_fill_rate 500" = .ok (some (.command 0x030001F4)) ∧
  assemble "set_write_rate 250" = .ok (some (.command 0x040000FA)) ∧
  assemble "set_fill_rate 0" = .ok (some (.command 0x03000000)) ∧
  assemble "set_fill_rate -5" = .ok (some (.command 0x03FFFFFB)) ∧
  assemble "set_fill_rate 1000" = .ok (some (.command 0x030003E8)) ∧
  assemble "set_write_rate 10" = .ok (some (.command 0x0400000A)) ∧
  assemble "start" = .ok (some (.command 0x05000000)) ∧
  assemble "stop" = .ok (some (.command 0x06000000)) ∧
  assemble "set_color 255,0,128" = .ok (some (.command 0x07FF0080)) ∧
  assemble "clr_color" = .ok (some (.command 0x08000000))

/-- Some words written out from 30_encoding R92, R94 and R97 decode to the instruction they stand for, and
reserved words and unknown mode numbers to none; the log words of 95_test_vectors P3 and P6 (format L) and the frame
of 43_scheduler R208 (format P) are packed and read as 30_encoding R90 lays them out. -/
def Obligations.WrittenWordsDecode : Prop :=
  decode (.command 0x0100000D) = .ok (.setMode 13) ∧
  decode (.command 0x02800000) = .ok (.setSpeed (-8388608)) ∧
  decode (.command 0x03FFFFFB) = .ok (.setFillRate (-5)) ∧
  decode (.command 0x07FF0080) = .ok (.setColor ⟨255, 0, 128⟩) ∧
  decode (.command 0x05000001) = .error (.reservedCommand 0x05000001) ∧
  decode (.command 0x01000100) = .error (.reservedCommand 0x01000100) ∧
  decode (.modeNumber 0x0D) = .ok .modeScanner ∧
  decode (.modeNumber 0x10) = .ok .modePulse ∧
  decode (.modeNumber 0x11) = .error (.unknownMode 0x11) ∧
  decode (.stageCode 0b10) = .ok .stageWrite ∧
  packEvent ⟨0x02, 0x00⟩ = 0x0200 ∧ unpackEvent 0x0104 = ⟨0x01, 0x04⟩ ∧
  frameWords ⟨50, [⟨255, 0, 0⟩, black]⟩ = (50, [0xFF0000, 0x000000])

/-! ## Colours -/

/-- The generation rule of the palette (20_memory R61): the three bands, black outside, and every entry's
channels summing to 255. -/
def Obligations.WheelFollowsTheThreeBands : Prop :=
  ∀ p : Int,
    (p < 0 ∨ p > 255 → wheel p = black) ∧
    (0 ≤ p → p < 85 → ((wheel p).r.toNat : Int) = 3 * p ∧ ((wheel p).g.toNat : Int) = 255 - 3 * p ∧
      (wheel p).b.toNat = 0) ∧
    (85 ≤ p → p < 170 → ((wheel p).r.toNat : Int) = 255 - 3 * (p - 85) ∧ (wheel p).g.toNat = 0 ∧
      ((wheel p).b.toNat : Int) = 3 * (p - 85)) ∧
    (170 ≤ p → p ≤ 255 → (wheel p).r.toNat = 0 ∧ ((wheel p).g.toNat : Int) = 3 * (p - 170) ∧
      ((wheel p).b.toNat : Int) = 255 - 3 * (p - 170)) ∧
    (0 ≤ p → p ≤ 255 → (wheel p).r.toNat + (wheel p).g.toNat + (wheel p).b.toNat = 255)

/-- A palette lookup reads entry `x mod 256`, which is `wheel` of it and never black; the ramp is cyclic
(20_memory R62, R63). -/
def Obligations.PaletteLookupWrapsAndIsNeverBlack : Prop :=
  (∀ x : Nat, pal (x + 256) = pal x ∧ pal x ≠ black) ∧
  (∀ k : Nat, k < 256 → pal k = wheel k) ∧ pal 0 = pal 255

/-- `Scale` and Meteor's dim floor each channel's product; `Scale` by 255 is the identity and by 0 black
(00_scope R9, 41_modes_stateful R156). -/
def Obligations.ScaleAndDimFloorEveryChannel : Prop :=
  ∀ (c : Pixel) (e : Nat), e ≤ 255 →
    (scale c e).r.toNat = c.r.toNat * e / 255 ∧ (scale c e).g.toNat = c.g.toNat * e / 255 ∧
    (scale c e).b.toNat = c.b.toNat * e / 255 ∧
    (dim e c).r.toNat = c.r.toNat * e / 256 ∧ (dim e c).g.toNat = c.g.toNat * e / 256 ∧
    (dim e c).b.toNat = c.b.toNat * e / 256 ∧ scale c 255 = c ∧ scale c 0 = black

/-- Fire's colour ramp (41_modes_stateful R167). -/
def Obligations.HeatColorFollowsTheThreeBands : Prop :=
  ∀ h : Nat, h ≤ 255 →
    (h < 85 → (heatColor h).r.toNat = 3 * h ∧ (heatColor h).g.toNat = 0 ∧ (heatColor h).b.toNat = 0) ∧
    (85 ≤ h → h < 170 → (heatColor h).r.toNat = 255 ∧ (heatColor h).g.toNat + 255 = 3 * h ∧
      (heatColor h).b.toNat = 0) ∧
    (170 ≤ h → (heatColor h).r.toNat = 255 ∧ (heatColor h).g.toNat = 255 ∧
      (heatColor h).b.toNat + 510 = 3 * h)

/-! ## Commands -/

/-- `SET_MODE` stores the resolved number and writes nothing else (44_control_commands R233,
42_mode_registry R192). -/
def Obligations.SetModeStoresTheResolvedNumber : Prop :=
  ∀ (s : State) (n : BitVec 8), s.cfgErr = false →
    ∃ t, exec (.setMode n) s = .next t ∧ t.mode.toNat = (if n.toNat ≤ 0x10 then n.toNat else 0) ∧
      { t with mode := s.mode } = s

/-- Selecting a name that is not registered leaves the machine as selecting Rainbow does
(42_mode_registry R194). -/
def Obligations.UnknownNameSelectsRainbow : Prop :=
  assemble "select nonexistent-mode-xyz" = .ok (some (encode (.setMode 0xFF))) ∧
  assemble "select rainbow" = .ok (some (encode (.setMode 0x00))) ∧
  ∀ (s : State) (n : BitVec 8), 0x10 < n.toNat → exec (.setMode n) s = exec (.setMode 0x00) s

/-- `SET_SPEED` stores the step modulo 256 and writes nothing else (44_control_commands R232). -/
def Obligations.SetSpeedStoresTheStepModulo256 : Prop :=
  ∀ (s : State) (step : Int), s.cfgErr = false →
    ∃ t, exec (.setSpeed step) s = .next t ∧ (t.speed.toNat : Int) = step % 256 ∧
      { t with speed := s.speed } = s

/-- `SET_FILL_RATE` and `SET_WRITE_RATE` store the rate's interval and write nothing else
(44_control_commands R234, R235). -/
def Obligations.SetRatesStoreTheInterval : Prop :=
  ∀ (s : State) (hz : Int), s.cfgErr = false →
    (∃ t, exec (.setFillRate hz) s = .next t ∧
      t.fillInterval.toNat = rateToInterval s.tuning.rateTie hz ∧
      { t with fillInterval := s.fillInterval } = s) ∧
    (∃ t, exec (.setWriteRate hz) s = .next t ∧
      t.writeInterval.toNat = rateToInterval s.tuning.rateTie hz ∧
      { t with writeInterval := s.writeInterval } = s)

/-- `RateToInterval(hz)` is `max(1, round(1000/hz))`, 1 for a rate of 0 or below, in `1..1000`; an exact
half goes to the even neighbour or up, as `RATE_TIE` says, and occurs only for four rates
(44_control_commands R231). -/
def Obligations.RateToIntervalRoundsToNearest : Prop :=
  ∀ (tie : RateTie) (hz : Int),
    1 ≤ rateToInterval tie hz ∧ rateToInterval tie hz ≤ 1000 ∧
    (hz ≤ 0 → rateToInterval tie hz = 1) ∧
    (0 < hz → ∃ q : Nat, rateToInterval tie hz = max 1 q ∧
      2 * (q * hz - 1000) ≤ hz ∧ 2 * (1000 - q * hz) ≤ hz ∧
      (2 * (q * hz - 1000) = hz ∨ 2 * (1000 - q * hz) = hz →
        (tie = .even → q % 2 = 0) ∧ (tie = .up → 1000 < q * hz))) ∧
    (hz ≠ 16 → hz ≠ 80 → hz ≠ 400 → hz ≠ 2000 → rateToInterval .even hz = rateToInterval .up hz)

/-- `START` while stopped takes one clock sample, writes it to both timestamps and sets `RUN`; while
running it changes nothing (44_control_commands R236). -/
def Obligations.StartLatchesBothTimestamps : Prop :=
  ∀ s : State, s.cfgErr = false →
    (s.run = true → exec .start s = .next s) ∧
    (s.run = false → ∃ t, exec .start s = .next t ∧ t.run = true ∧
      t.lastFill = s.clock.answer Config.freeClock ∧ t.lastWrite = t.lastFill ∧
      t.clock = s.clock.advance ∧
      { t with run := s.run, lastFill := s.lastFill, lastWrite := s.lastWrite, clock := s.clock } = s)

/-- `STOP` clears `RUN` and nothing else, whatever the stage (44_control_commands R237). -/
def Obligations.StopClearsRun : Prop :=
  ∀ s : State, s.cfgErr = false →
    ∃ t, exec .stop s = .next t ∧ t.run = false ∧ { t with run := s.run } = s

/-- `SET_COLOR` leaves `SOLID_COLOR = {1, r, g, b}` and `CLR_COLOR` clears the valid bit and keeps the pixel
(44_control_commands R238, R239), as the status port reads the register (10_state R41); nothing else changes. -/
def Obligations.ColorCommandsWriteSolidColor : Prop :=
  ∀ (s : State) (c : Pixel), s.cfgErr = false →
    (∃ t, exec (.setColor c) s = .next t ∧ t.solidValid = true ∧ t.solidPixel = c ∧
      (readRegister t 0x0B).toNat = 2 ^ 24 + c.r.toNat * 65536 + c.g.toNat * 256 + c.b.toNat ∧
      { t with solidValid := s.solidValid, solidPixel := s.solidPixel } = s) ∧
    (∃ u, exec .clrColor s = .next u ∧ u.solidValid = false ∧ u.solidPixel = s.solidPixel ∧
      (readRegister u 0x0B).toNat =
        s.solidPixel.r.toNat * 65536 + s.solidPixel.g.toNat * 256 + s.solidPixel.b.toNat ∧
      { u with solidValid := s.solidValid } = s)

/-- No command sets `PHASE`, `NUM_LEDS`, `BRIGHTNESS`, the buffer, a timestamp other than through `START`, or
any private state; none writes `PENDING`, `NOW`, `STAGE`, none logs and none writes a frame
(44_control_commands R230, R240; 10_state R40). -/
def Obligations.CommandsLeaveLoopAndPrivateStateAlone : Prop :=
  ∀ (i : Instr) (s t : State), (encode i).format = .C → exec i s = .next t →
    t.phase = s.phase ∧ t.numLeds = s.numLeds ∧ t.brightness = s.brightness ∧ t.buf = s.buf ∧
    (i ≠ .start → t.lastFill = s.lastFill ∧ t.lastWrite = s.lastWrite) ∧
    t.chasePos = s.chasePos ∧ t.scPos = s.scPos ∧ t.scDir = s.scDir ∧ t.mtPos = s.mtPos ∧
    t.tw = s.tw ∧ t.sp = s.sp ∧ t.cf = s.cf ∧ t.heat = s.heat ∧
    t.pending = s.pending ∧ t.now = s.now ∧ t.stage = s.stage ∧
    t.frames = s.frames ∧ t.log = s.log ∧ t.random = s.random

/-! ## Routines without private state -/

/-- Rainbow (40_modes_stateless R121). -/
def Obligations.RainbowPaintsTheScrollingGradient : Prop :=
  ∀ s : State, s.cfgErr = false →
    ∃ t, exec .modeRainbow s = .next t ∧ OnlyBuf s t ∧
      Painted s t (fun i => pal ((i * 255 / s.numPixels + s.phase.toNat) % 256))

/-- Solid: the supplied colour where valid, else `PAL[PHASE]` (40_modes_stateless R122). -/
def Obligations.SolidPaintsOneColor : Prop :=
  ∀ s : State, s.cfgErr = false →
    ∃ t, exec .modeSolid s = .next t ∧ OnlyBuf s t ∧
      (s.solidValid = true → Painted s t (fun _ => s.solidPixel)) ∧
      (s.solidValid = false → Painted s t (fun _ => pal s.phase.toNat))

/-- Primary cycle: red, green, blue by the phase's band (40_modes_stateless R123). -/
def Obligations.PrimaryCyclePaintsTheBandColor : Prop :=
  ∀ s : State, s.cfgErr = false →
    ∃ t, exec .modePrimaryCycle s = .next t ∧ OnlyBuf s t ∧
      (s.phase.toNat < 85 → Painted s t (fun _ => ⟨255, 0, 0⟩)) ∧
      (85 ≤ s.phase.toNat → s.phase.toNat < 170 → Painted s t (fun _ => ⟨0, 255, 0⟩)) ∧
      (170 ≤ s.phase.toNat → Painted s t (fun _ => ⟨0, 0, 255⟩))

/-- Random flash: one draw below `2^24`, its three bytes the colour of the whole strip
(40_modes_stateless R124), whatever the draw is. -/
def Obligations.RandomFlashPaintsOneDraw : Prop :=
  ∀ s : State, s.cfgErr = false →
    ∃ t, exec .modeRandomFlash s = .next t ∧
      { t with buf := s.buf, random := s.random } = s ∧ t.random = s.random.advance ∧
      Painted s t (fun _ =>
        rgb (drawnNumber s.random 0 % 2 ^ 24 / 65536) (drawnNumber s.random 0 / 256 % 256)
          (drawnNumber s.random 0 % 256))

/-- Breathing: `PAL[PHASE]` scaled by the triangle envelope (40_modes_stateless R125). -/
def Obligations.BreathingScalesByTheTriangle : Prop :=
  ∀ s : State, s.cfgErr = false →
    ∃ t, exec .modeBreathing s = .next t ∧ OnlyBuf s t ∧
      (s.phase.toNat < 128 → Painted s t (fun _ => scale (pal s.phase.toNat) (2 * s.phase.toNat))) ∧
      (s.phase.toNat = 128 → Painted s t (fun _ => pal 128)) ∧
      (128 < s.phase.toNat →
        Painted s t (fun _ => scale (pal s.phase.toNat) (2 * (256 - s.phase.toNat))))

/-- Color wipe: lit up to `(PHASE*NL) div 256`, black beyond; pixel 0 is always lit
(40_modes_stateless R126). -/
def Obligations.ColorWipeLightsUpToTheBoundary : Prop :=
  ∀ s : State, s.cfgErr = false →
    ∃ t, exec .modeColorWipe s = .next t ∧ OnlyBuf s t ∧
      Painted s t (fun i => if i * 256 ≤ s.phase.toNat * s.numPixels then pal s.phase.toNat else black) ∧
      (0 < s.numPixels → t.buf.read black 0 = pal s.phase.toNat)

/-- Gradient (40_modes_stateless R127). -/
def Obligations.GradientSpansItsSteps : Prop :=
  ∀ s : State, s.cfgErr = false → tuningLegal s.tuning = true →
    ∃ t, exec .modeGradient s = .next t ∧ OnlyBuf s t ∧
      Painted s t (fun i => pal ((i * s.tuning.gradientSpan / s.numPixels + s.phase.toNat) % 256))

/-- Theater chase: every third pixel (40_modes_stateless R128). -/
def Obligations.TheaterChaseLightsEveryThirdPixel : Prop :=
  ∀ s : State, s.cfgErr = false →
    ∃ t, exec .modeTheaterChase s = .next t ∧ OnlyBuf s t ∧
      Painted s t (fun i => if 3 ∣ i + s.phase.toNat then pal s.phase.toNat else black)

/-- Strobe: lit in the first `STROBE_ON` phases of each period (40_modes_stateless R129). -/
def Obligations.StrobeLightsThePeriodsStart : Prop :=
  ∀ s : State, s.cfgErr = false → tuningLegal s.tuning = true →
    ∃ t, exec .modeStrobe s = .next t ∧ OnlyBuf s t ∧
      (s.phase.toNat % s.tuning.strobePeriod < s.tuning.strobeOn →
        Painted s t (fun _ => pal s.phase.toNat)) ∧
      (s.tuning.strobeOn ≤ s.phase.toNat % s.tuning.strobePeriod → Painted s t (fun _ => black))

/-- Pulse: `PAL[PHASE]` scaled by the sawtooth envelope, which is never 0 (40_modes_stateless R130). -/
def Obligations.PulseScalesByTheSawtooth : Prop :=
  ∀ s : State, s.cfgErr = false → tuningLegal s.tuning = true →
    ∃ t e, exec .modePulse s = .next t ∧ OnlyBuf s t ∧
      e + s.phase.toNat % s.tuning.pulsePeriod * 255 / s.tuning.pulsePeriod = 255 ∧ 1 ≤ e ∧
      Painted s t (fun _ => scale (pal s.phase.toNat) e)

/-! ## Routines with private state -/

/-- Chase: one lit pixel at `CHASE_POS`, which then advances and wraps at `NL`; a position not below `NL` is
a mode fault (41_modes_stateful R150), whose recovery is part of the instruction by the model's choice (log
14). -/
def Obligations.ChasePaintsThenAdvances : Prop :=
  ∀ s : State, s.cfgErr = false →
    (s.numPixels ≤ s.chasePos.toNat → exec .modeChase s = .next (takeModeFault s)) ∧
    (s.chasePos.toNat < s.numPixels → ∃ t, exec .modeChase s = .next t ∧
      t.chasePos.toNat = (if s.chasePos.toNat + 1 = s.numPixels then 0 else s.chasePos.toNat + 1) ∧
      { t with buf := s.buf, chasePos := s.chasePos } = s ∧
      Painted s t (fun i => if i = s.chasePos.toNat then pal s.phase.toNat else black))

/-- Scanner: one lit pixel at `SC_POS`, which then moves, reversing exactly at the ends; with one pixel
nothing moves; a position not below `NL` is a mode fault (41_modes_stateful R153), whose recovery is part of the
instruction by the model's choice (log 14). -/
def Obligations.ScannerPaintsThenBounces : Prop :=
  ∀ s : State, s.cfgErr = false →
    (s.numPixels ≤ s.scPos.toNat → exec .modeScanner s = .next (takeModeFault s)) ∧
    (s.scPos.toNat < s.numPixels → ∃ t, exec .modeScanner s = .next t ∧
      { t with buf := s.buf, scPos := s.scPos, scDir := s.scDir } = s ∧
      Painted s t (fun i => if i = s.scPos.toNat then pal s.phase.toNat else black) ∧
      (s.numPixels = 1 → t.scPos = s.scPos ∧ t.scDir = s.scDir) ∧
      (1 < s.numPixels → s.scDir = .up → s.scPos.toNat + 1 < s.numPixels →
        t.scDir = .up ∧ t.scPos.toNat = s.scPos.toNat + 1) ∧
      (1 < s.numPixels → s.scDir = .up → s.scPos.toNat + 1 = s.numPixels →
        t.scDir = .down ∧ t.scPos.toNat + 1 = s.scPos.toNat) ∧
      (1 < s.numPixels → s.scDir = .down → 0 < s.scPos.toNat →
        t.scDir = .down ∧ t.scPos.toNat + 1 = s.scPos.toNat) ∧
      (1 < s.numPixels → s.scDir = .down → s.scPos.toNat = 0 → t.scDir = .up ∧ t.scPos.toNat = 1))

/-- Meteor: the head and its trail over the dimmed buffer, then the head advances; a position not below `NL`
is a mode fault (41_modes_stateful R156), whose recovery is part of the instruction by the model's choice (log
14). -/
def Obligations.MeteorDimsThenPaintsTheTrail : Prop :=
  ∀ s : State, s.cfgErr = false → tuningLegal s.tuning = true →
    (s.numPixels ≤ s.mtPos.toNat → exec .modeMeteor s = .next (takeModeFault s)) ∧
    (s.mtPos.toNat < s.numPixels → ∃ t, exec .modeMeteor s = .next t ∧
      t.mtPos.toNat = (s.mtPos.toNat + 1) % s.numPixels ∧
      { t with buf := s.buf, mtPos := s.mtPos } = s ∧
      Painted s t (fun i =>
        if i ≤ s.mtPos.toNat ∧ s.mtPos.toNat < i + s.tuning.meteorTrail then
          scale (pal s.phase.toNat) (255 - (s.mtPos.toNat - i) * 255 / s.tuning.meteorTrail)
        else dim s.tuning.meteorDim (s.buf.read black i)))

/-- Twinkle: a decay tick over its own file, colours drawn from the whole palette, no fading
(41_modes_stateful R160, R161). -/
def Obligations.TwinkleDecaysAndFires : Prop :=
  ∀ s : State, s.cfgErr = false → tuningLegal s.tuning = true →
    ∃ t, exec .modeTwinkle s = .next t ∧
      { t with buf := s.buf, tw := s.tw, random := s.random } = s ∧
      DecayTicked s t s.tw t.tw 50 s.tuning.twLifeMin s.tuning.twLifeMax 3
        (fun v => pal (v % 256)) (fun c _ => c)

/-- Sparkle: a decay tick over its own file in the phase colour, two draws a firing pixel, no fading
(41_modes_stateful R160, R162). -/
def Obligations.SparkleDecaysAndFires : Prop :=
  ∀ s : State, s.cfgErr = false → tuningLegal s.tuning = true →
    ∃ t, exec .modeSparkle s = .next t ∧
      { t with buf := s.buf, sp := s.sp, random := s.random } = s ∧
      DecayTicked s t s.sp t.sp s.tuning.spDen s.tuning.spLifeMin s.tuning.spLifeMax 2
        (fun _ => pal s.phase.toNat) (fun c _ => c)

/-- Confetti: a decay tick over its own file, colours near the phase colour, fading with the remaining life
(41_modes_stateful R160, R163). -/
def Obligations.ConfettiDecaysAndFires : Prop :=
  ∀ s : State, s.cfgErr = false → tuningLegal s.tuning = true →
    ∃ t, exec .modeConfetti s = .next t ∧
      { t with buf := s.buf, cf := s.cf, random := s.random } = s ∧
      DecayTicked s t s.cf t.cf s.tuning.cfDen s.tuning.cfLifeMin s.tuning.cfLifeMax 3
        (fun v => pal ((s.phase.toNat + v % s.tuning.cfHueSpread) % 256))
        (fun c life => scale c (min 255 (life * 255 / s.tuning.cfLifeMax)))

/-- Fire: cool every pixel by its own draw, reheat one drawn pixel, map heat to colour, with `NL + 2` draws
in that order (41_modes_stateful R166). -/
def Obligations.FireCoolsReheatsAndMaps : Prop :=
  ∀ s : State, s.cfgErr = false → tuningLegal s.tuning = true → 0 < s.numPixels →
    ∃ t, exec .modeFire s = .next t ∧
      { t with buf := s.buf, heat := s.heat, random := s.random } = s ∧
      t.random = afterDraws s.random (s.numPixels + 2) ∧
      (∀ i, i < s.numPixels → (t.heat.read 0#8 i).toNat =
        if i = drawnNumber s.random s.numPixels % s.numPixels then
          min 255 (cooledHeat s i + (s.tuning.fireHeatMin + drawnNumber s.random (s.numPixels + 1) %
            (s.tuning.fireHeatMax - s.tuning.fireHeatMin + 1)))
        else cooledHeat s i) ∧
      (∀ i, s.numPixels ≤ i → t.heat.read 0#8 i = s.heat.read 0#8 i) ∧
      Painted s t (fun i => heatColor (t.heat.read 0#8 i).toNat)

/-- A position register not below `NUM_LEDS`: the routine writes nothing of its own; one log event with the
value of `MODE`, the word `0x01` above `MODE`, and Rainbow over the whole strip (60_exceptions R262, R263;
30_encoding R90, R98). That this recovery is part of the routine's instruction is the model's choice (log 14). -/
def Obligations.ModeFaultLogsAndPaintsRainbow : Prop :=
  ∀ (s : State) (m : ModeId), s.cfgErr = false → tuningLegal s.tuning = true → modeFaults m s = true →
    ∃ t r w, exec (instrOfMode m) s = .next t ∧ exec .modeRainbow s = .next r ∧ t.buf = r.buf ∧
      t.log = s.log ++ [⟨0x01, s.mode⟩] ∧ { t with buf := s.buf, log := s.log } = s ∧
      logWords t = logWords s ++ [w] ∧ w.toNat = 0x0100 + s.mode.toNat

/-- Every routine that answers a next state writes `BUF`, its own private registers and, if it draws, the random
port, and nothing else; `PHASE` in particular stays (40_modes_stateless R120). The log takes one event exactly when
the routine faults (60_exceptions R262, R263); that this event belongs to the routine's instruction is the model's
choice (log 14), and so is holding the random port's answers in the state (log 4). -/
def Obligations.RoutinesWriteOnlyTheirOwn : Prop :=
  ∀ (m : ModeId) (s t : State), exec (instrOfMode m) s = .next t →
    t.log = (if modeFaults m s = true then s.log ++ [⟨0x01, s.mode⟩] else s.log) ∧
    { t with
      buf := s.buf
      log := s.log
      random := if drawsNumbers m = true then s.random else t.random
      chasePos := if m = .chase then s.chasePos else t.chasePos
      scPos := if m = .scanner then s.scPos else t.scPos
      scDir := if m = .scanner then s.scDir else t.scDir
      mtPos := if m = .meteor then s.mtPos else t.mtPos
      tw := if m = .twinkle then s.tw else t.tw
      sp := if m = .sparkle then s.sp else t.sp
      cf := if m = .confetti then s.cf else t.cf
      heat := if m = .fire then s.heat else t.heat } = s

/-- A routine's picture, its private registers after it and its draws are a function of what it may read
(40_modes_stateless R120): from any two configured states that agree on that, whatever every other register,
other modes' private registers, `SOLID_COLOR` but for Solid, the old buffer but for Meteor, `RUN`, `PENDING`, the
timers and the ports hold, it answers with the same. That a routine runs only where `CFG_ERR = 0` is 60_exceptions
R261, as a fault the model's choice (log 8). -/
def Obligations.RoutinesDoNotReadTheRest : Prop :=
  ∀ (m : ModeId) (s s' t : State), s'.cfgErr = false → SameInputs m s s' →
    exec (instrOfMode m) s = .next t →
    ∃ u, exec (instrOfMode m) s' = .next u ∧
      (∀ i, i < s.numPixels → u.buf.read black i = t.buf.read black i) ∧ SamePrivate m t u ∧
      u.random = t.random

/-! ## The scheduler -/

/-- The interval comparator: the difference modulo `2^32`, unsigned, against the interval
(43_scheduler R203). -/
def Obligations.DueComparesTheWrappedDifference : Prop :=
  ∀ (now last : BitVec 32) (iv : BitVec 16),
    (elapsed now last : Int) = ((now.toNat : Int) - last.toNat) % 2 ^ 32 ∧
    (due now last iv = true ↔ (iv.toNat : Int) ≤ ((now.toNat : Int) - last.toNat) % 2 ^ 32)

/-- Stage IDLE goes to FILL when `RUN = 1` and is held otherwise; stage YIELD goes to FILL; neither changes
anything else (43_scheduler R201, R205). That a held agent is a step which changes nothing is the model's choice
(log 7). -/
def Obligations.IdleAndYieldMoveOnlyTheStage : Prop :=
  ∀ s : State, s.cfgErr = false →
    (∃ t, exec .stageIdle s = .next t ∧ t.stage = (if s.run = true then .fill else s.stage) ∧
      { t with stage := s.stage } = s) ∧
    (∃ u, exec .stageYield s = .next u ∧ u.stage = .fill ∧ { u with stage := s.stage } = s)

/-- Stage FILL without a fill tick: `NOW` takes one clock sample; with `RUN = 0` the loop goes idle, with
the gate not due it goes to WRITE; nothing else changes (43_scheduler R202). -/
def Obligations.FillStageWithoutTick : Prop :=
  ∀ s : State, s.cfgErr = false →
    s.run = false ∨ due (s.clock.answer Config.freeClock) s.lastFill s.fillInterval = false →
    ∃ t, exec .stageFill s = .next t ∧ t.now = s.clock.answer Config.freeClock ∧
      t.clock = s.clock.advance ∧ t.stage = (if s.run = true then .write else .idle) ∧
      { t with now := s.now, clock := s.clock, stage := s.stage } = s

/-- Stage FILL with a fill tick: the routine `MODE` resolves to runs on the state with the fresh sample in
`NOW` and the phase not yet advanced; then `PHASE <- (PHASE + SPEED) mod 256`, `LAST_FILL <- NOW`, stage
WRITE (43_scheduler R202, R207; 42_mode_registry R193). It completes with legal tuning parameters and a pixel, whatever `MODE` and the
positions hold (30_encoding R96). -/
def Obligations.FillTickRunsTheSelectedRoutine : Prop :=
  ∀ s : State, s.cfgErr = false → tuningLegal s.tuning = true → 0 < s.numPixels → s.run = true →
    due (s.clock.answer Config.freeClock) s.lastFill s.fillInterval = true →
    encode (instrOfMode (routineOf s.mode)) = .modeNumber (if s.mode.toNat ≤ 0x10 then s.mode else 0x00) ∧
    ∃ u t, exec (instrOfMode (routineOf s.mode))
        { s with now := s.clock.answer Config.freeClock, clock := s.clock.advance } = .next u ∧
      exec .stageFill s = .next t ∧
      t.phase.toNat = (s.phase.toNat + s.speed.toNat) % 256 ∧
      t.lastFill = s.clock.answer Config.freeClock ∧ t.stage = .write ∧
      { t with phase := u.phase, lastFill := u.lastFill, stage := u.stage } = u

/-- Stage WRITE: not due, only the stage changes; due, one frame with `BRIGHTNESS` and every pixel of the
strip in index order goes out, a failure is logged and nothing else tells it from a success, `PENDING` is
clear and `LAST_WRITE` is `NOW` (43_scheduler R204, R208; 60_exceptions R266). -/
def Obligations.WriteStageHandsOverTheSnapshot : Prop :=
  ∀ s : State, s.cfgErr = false →
    (due s.now s.lastWrite s.writeInterval = false → exec .stageWrite s = .next { s with stage := .yield }) ∧
    (due s.now s.lastWrite s.writeInterval = true → ∃ t f, exec .stageWrite s = .next t ∧
      t.frames = s.frames ++ [f] ∧ f.brightness = s.brightness ∧ f.pixels.length = s.numPixels ∧
      (∀ i, i < s.numPixels → f.pixels[i]? = some (s.buf.read black i)) ∧
      t.log = (if s.writer.answer Config.freeStatus = .fail then s.log ++ [⟨0x02, 0x00⟩] else s.log) ∧
      logWords t = logWords s ++ (if s.writer.answer Config.freeStatus = .fail then [0x0200] else []) ∧
      t.pending = false ∧ t.lastWrite = s.now ∧ t.stage = .yield ∧ t.writer = s.writer.advance ∧
      { t with frames := s.frames, log := s.log, pending := s.pending, lastWrite := s.lastWrite,
               stage := s.stage, writer := s.writer } = s)

/-- The gates are independent and share only `NOW` (43_scheduler R209). Stage FILL writes nothing of the write gate
and hands over nothing; stage WRITE writes nothing of the fill gate, no phase, no pixel. Neither stage reads the
other gate's timestamp or interval: from a state that differs there, or in `PENDING`, it does the same and leaves
the difference as it is, but that a write tick clears `PENDING`. -/
def Obligations.GatesShareOnlyTheClockSample : Prop :=
  ∀ (s t : State) (last : BitVec 32) (interval : BitVec 16) (p : Bool),
    (exec .stageFill s = .next t →
      t.lastWrite = s.lastWrite ∧ t.writeInterval = s.writeInterval ∧
      t.fillInterval = s.fillInterval ∧ t.frames = s.frames ∧ t.writer = s.writer ∧
      exec .stageFill { s with lastWrite := last, writeInterval := interval, pending := p } =
        .next { t with lastWrite := last, writeInterval := interval, pending := p }) ∧
    (exec .stageWrite s = .next t →
      t.lastFill = s.lastFill ∧ t.fillInterval = s.fillInterval ∧
      t.writeInterval = s.writeInterval ∧ t.phase = s.phase ∧ t.buf = s.buf ∧ t.now = s.now ∧
      t.random = s.random ∧
      exec .stageWrite { s with lastFill := last, fillInterval := interval, pending := p } =
        .next { t with
          lastFill := last
          fillInterval := interval
          pending := if due s.now s.lastWrite s.writeInterval = true then false else p })

/-- One loop iteration with nothing else moving: the stages FILL, WRITE, YIELD in that order and one clock
sample; at most one fill tick and one write tick, each gate against that sample; where both are due the frame
handed over is the buffer just filled; missed intervals are not made up (43_scheduler R200, R210, R211). -/
def Obligations.IterationRunsEachGateAtMostOnce : Prop :=
  ∀ s : State, s.cfgErr = false → tuningLegal s.tuning = true → 0 < s.numPixels → s.run = true →
    s.stage = .fill → s.commands = [] → s.resets = [] →
    let now := s.clock.answer Config.freeClock
    ∃ t u v, step s = .next t ∧ t.stage = .write ∧ step t = .next u ∧ u.stage = .yield ∧
      step u = .next v ∧ v.stage = .fill ∧ v.now = now ∧ v.clock = s.clock.advance ∧
      (due now s.lastFill s.fillInterval = false →
        v.phase = s.phase ∧ v.lastFill = s.lastFill ∧ v.buf = s.buf) ∧
      (due now s.lastFill s.fillInterval = true → v.phase = s.phase + s.speed ∧ v.lastFill = now ∧
        ∃ r, exec (instrOfMode (routineOf s.mode)) { s with now := now, clock := s.clock.advance } = .next r ∧
          v.buf = r.buf) ∧
      (due now s.lastWrite s.writeInterval = false → v.frames = s.frames ∧ v.lastWrite = s.lastWrite) ∧
      (due now s.lastWrite s.writeInterval = true → ∃ f, v.frames = s.frames ++ [f] ∧ v.lastWrite = now ∧
        f.pixels.length = s.numPixels ∧
        ∀ i, i < s.numPixels → f.pixels[i]? = some (v.buf.read black i))

/-- After `STOP`, with nothing else moving, the loop is idle within the rest of its iteration, which makes no
fill tick and, from stage WRITE only, at most one write tick (70_reset_and_hazards R301). -/
def Obligations.StopEndsWithinTheIteration : Prop :=
  ∀ s : State, s.cfgErr = false → s.run = false → s.commands = [] → s.resets = [] →
    (s.stage = .fill → ∃ t, step s = .next t ∧ quiescent t = true ∧ t.buf = s.buf ∧ t.phase = s.phase ∧
      t.frames = s.frames) ∧
    (s.stage = .yield → ∃ t u, step s = .next t ∧ step t = .next u ∧ quiescent u = true ∧
      u.buf = s.buf ∧ u.phase = s.phase ∧ u.frames = s.frames) ∧
    (s.stage = .write → ∃ t u v, step s = .next t ∧ step t = .next u ∧ step u = .next v ∧
      quiescent v = true ∧ v.buf = s.buf ∧ v.phase = s.phase ∧
      v.frames.length = s.frames.length + (if due s.now s.lastWrite s.writeInterval = true then 1 else 0))

/-- After `n` fill ticks the phase is `(p0 + n*SPEED) mod 256`, whatever the mode; and `n` fill ticks
complete with legal tuning parameters and a pixel (43_scheduler R213). -/
def Obligations.PhaseAdvancesByTheSpeed : Prop :=
  ∀ (n : Nat) (s : State), s.cfgErr = false → tuningLegal s.tuning = true → 0 < s.numPixels →
    ∃ t, fillTicks n s = .next t ∧ t.phase.toNat = (s.phase.toNat + n * s.speed.toNat) % 256 ∧
      t.speed = s.speed

/-- Across `NL` consecutive fill ticks with Chase active exactly one pixel is lit per tick, and every index
is lit at exactly one of them (41_modes_stateful R151). -/
def Obligations.ChaseVisitsEveryPixelOnce : Prop :=
  ∀ s : State, s.cfgErr = false → s.mode = 0x04 → s.chasePos.toNat < s.numPixels →
    (∀ k, k < s.numPixels → ∃ t, fillTicks (k + 1) s = .next t ∧
      ∀ i, i < s.numPixels →
        (t.buf.read black i ≠ black ↔ i = (s.chasePos.toNat + k) % s.numPixels)) ∧
    (∀ i, i < s.numPixels →
      ∃! k, k < s.numPixels ∧ ∃ t, fillTicks (k + 1) s = .next t ∧ t.buf.read black i ≠ black)

/-! ## The whole machine -/

/-- One step: without a reset or the host moving, the step `STAGE` names; on the host's turn, the command its
oldest word decodes to, that word consumed; a reserved word is refused (43_scheduler R200, 60_exceptions
R275, 30_encoding R93). The choice of the mover is a free value (log 6). -/
def Obligations.StepRunsTheDecodedInstruction : Prop :=
  ∀ s : State, s.cfgErr = false →
    (s.commands = [] → s.resets = [] →
      step s = exec (decodeStage (stageCodeOf s.stage)) s) ∧
    (turnOf s = .scheduler → step s = exec (decodeStage (stageCodeOf s.stage)) (afterTurn s)) ∧
    (∀ w rest i, turnOf s = .host → s.commands = w :: rest → decode (.command w) = .ok i →
      step s = exec i { s with commands := rest, turns := s.turns.advance }) ∧
    (∀ w rest, turnOf s = .host → s.commands = w :: rest →
      decode (.command w) = .error (.reservedCommand w) → step s = .refused (.reservedCommand w))

/-- While `CFG_ERR = 1` no instruction executes, and a step is a waiting reset or nothing
(60_exceptions R261). That nothing is a fault is the model's choice (log 8). -/
def Obligations.ConfigErrorStopsAllButReset : Prop :=
  ∀ s : State, s.cfgErr = true →
    (∀ i, exec i s = .fault .configError) ∧
    (s.resets = [] → step s = .fault .configError) ∧
    (∀ c rest, s.resets = c :: rest → step s = performReset c { s with resets := rest })

/-- Reset leaves every register and memory at the value of the table of 10_state R44, for every choice of
the parameters. -/
def Obligations.ResetLeavesTheTablesValues : Prop :=
  ∀ (t : Tuning) (c : Construction),
    let s := State.construct t c
    s.numLeds = c.numLeds ∧ s.brightness = c.brightness ∧ (s.cfgErr = true ↔ c.numLeds = 0) ∧
    s.fillInterval.toNat = rateToInterval t.rateTie c.fillRateHz.toInt ∧
    s.writeInterval.toNat = rateToInterval t.rateTie c.writeRateHz.toInt ∧
    (s.speed.toNat : Int) = c.speed % 256 ∧ s.phase = 0 ∧ s.mode = 0 ∧ s.solidValid = false ∧
    s.solidPixel = black ∧ s.run = false ∧ s.pending = false ∧ s.stage = .idle ∧ s.now = 0 ∧
    s.lastFill = 0 ∧ s.lastWrite = 0 ∧ s.chasePos = 0 ∧ s.scPos = 0 ∧ s.mtPos = 0 ∧ s.scDir = .up ∧
    ∀ i, s.buf.read black i = black ∧ s.tw.life.read 0#8 i = 0 ∧ s.sp.life.read 0#8 i = 0 ∧
      s.cf.life.read 0#8 i = 0 ∧ s.heat.read 0#8 i = 0 ∧ s.tw.col.read black i = black ∧
      s.sp.col.read black i = black ∧ s.cf.col.read black i = black

/-- A reset on the environment's turn is a new construction with its parameters; the block keeps nothing, the
environment's side its ports, waiting words and outputs (70_reset_and_hazards R290). That those stay is the
model's choice (log 9). -/
def Obligations.ResetIsANewConstruction : Prop :=
  ∀ (s : State) (c : Construction) (rest : List Construction), s.resets = c :: rest →
    s.cfgErr = true ∨ turnOf s = .reset → c.brightness.toNat ≤ 100 →
    ∃ t, step s = .next t ∧
      { t with clock := freshPort, random := freshPort, writer := freshPort, turns := freshPort,
               commands := [], resets := [], frames := [], log := [] } = State.construct s.tuning c ∧
      t.clock = s.clock ∧ t.random = s.random ∧ t.writer = s.writer ∧ t.commands = s.commands ∧
      t.resets = rest ∧ t.frames = s.frames ∧ t.log = s.log

/-- A reset with legal parameters leaves a state of 10_state R43, with `NUM_LEDS = 0` too: there no position is
below `NUM_LEDS`, and reading the position clause under `CFG_ERR = 0` is the model's (log 18). The parameters of
State.reset are the model's choice (log 1, 2); the second clause holds for every legal choice. -/
def Obligations.ResetStatesAreGood : Prop :=
  State.reset.Inv ∧
  ∀ (t : Tuning) (c : Construction), tuningLegal t = true → c.brightness.toNat ≤ 100 →
    (State.construct t c).Inv

/-- Every step from a state of 10_state R43 that answers a next state answers one: intervals in `1..1000`,
`MODE` at most 16, positions below `NUM_LEDS`, `PENDING` clear, every memory within the strip and in canonical
form. Reading the position clause under `CFG_ERR = 0` is the model's (log 18). -/
def Obligations.EveryStepKeepsTheInvariants : Prop :=
  ∀ s t : State, s.Inv → step s = .next t → t.Inv

/-- The machine never ends a run by itself: a live state (`CFG_ERR = 0`, legal tuning parameters, a pixel, no reset
waiting and only words waiting that decode) steps to a live state, so every number of steps answers a next state,
whatever the clock, the draws, the write statuses and the interleaving are (00_scope R15, 60_exceptions R260). That
an idle loop with `RUN = 0`, which 43_scheduler R201 holds, still has a step, which changes nothing, is the model's
choice (log 7). -/
def Obligations.RunNeverEndsByItself : Prop :=
  (∀ s : State, s.Live → ∃ t, step s = .next t ∧ t.Live) ∧
  ∀ (n : Nat) (s : State), s.Live → ∃ t, Host.Core.run Sys2Proof.core n s = .next t

/-- A quiescent state is left only by a `START` command; a reset leads to a quiescent state (00_scope
R15). -/
def Obligations.QuiescenceEndsOnlyByStart : Prop :=
  ∀ s t : State, quiescent s = true → step s = .next t → quiescent t = false →
    HostIssues s .start

/-- The lifecycle of 60_exceptions R269, where no reset waits: STOPPED is left by a `START` command, RUNNING by
a `STOP` command, STOPPING by the loop's stage FILL or a `START` command; CONFIG_ERROR has no step. -/
def Obligations.LifecycleFollowsItsTable : Prop :=
  ∀ s t : State, s.resets = [] → step s = .next t →
    lifecycle s ≠ .configError ∧ lifecycle t ≠ .configError ∧
    (lifecycle s = .stopped → lifecycle t = .stopped ∨ (lifecycle t = .running ∧ HostIssues s .start)) ∧
    (lifecycle s = .running → lifecycle t = .running ∨ (HostIssues s .stop ∧
      lifecycle t = if s.stage = .idle then .stopped else .stopping)) ∧
    (lifecycle s = .stopping → lifecycle t = .stopping ∨ (lifecycle t = .stopped ∧ s.stage = .fill) ∨
      (lifecycle t = .running ∧ HostIssues s .start))

/-- Private state is written only by its owner: whatever instruction answers a next state, the registers and
files of a mode that it does not run stay (10_state R40). -/
def Obligations.PrivateStateIsWrittenByItsOwner : Prop :=
  ∀ (i : Instr) (s t : State), exec i s = .next t →
    (¬ MayRun i s .chase → t.chasePos = s.chasePos) ∧
    (¬ MayRun i s .scanner → t.scPos = s.scPos ∧ t.scDir = s.scDir) ∧
    (¬ MayRun i s .meteor → t.mtPos = s.mtPos) ∧
    (¬ MayRun i s .twinkle → t.tw = s.tw) ∧
    (¬ MayRun i s .sparkle → t.sp = s.sp) ∧
    (¬ MayRun i s .confetti → t.cf = s.cf) ∧
    (¬ MayRun i s .fire → t.heat = s.heat)

/-- `NUM_LEDS` and `BRIGHTNESS` are never written after reset, nor is `CFG_ERR`, by any instruction (10_state R31,
R42). The tuning parameters stay too: they are parameters and no state (00_scope R7, R13), and that the model
carries them in a field of State is its choice (log 2). -/
def Obligations.ParametersAreNeverWritten : Prop :=
  ∀ (i : Instr) (s t : State), exec i s = .next t →
    t.numLeds = s.numLeds ∧ t.brightness = s.brightness ∧ t.cfgErr = s.cfgErr ∧ t.tuning = s.tuning

/-- The status port reads each control register under its number, zero-extended, 0 under every other, and the
arrays under their index, which for the palette wraps modulo 256 (10_state R41, 20_memory R60, R65). -/
def Obligations.StatusPortReadsTheRegisters : Prop :=
  ∀ s : State,
    (readRegister s 0x00).toNat = s.numLeds.toNat ∧ (readRegister s 0x01).toNat = s.brightness.toNat ∧
    ((readRegister s 0x02).getLsbD 0 = s.run ∧ (readRegister s 0x02).getLsbD 1 = s.pending ∧
      (readRegister s 0x02).getLsbD 2 = s.cfgErr ∧
      (readRegister s 0x02).extractLsb' 4 2 = stageCodeOf s.stage ∧
      (readRegister s 0x02).getLsbD 3 = false ∧ (readRegister s 0x02).toNat < 64) ∧
    (readRegister s 0x03).toNat = s.mode.toNat ∧ (readRegister s 0x04).toNat = s.phase.toNat ∧
    (readRegister s 0x05).toNat = s.speed.toNat ∧ (readRegister s 0x06).toNat = s.fillInterval.toNat ∧
    (readRegister s 0x07).toNat = s.writeInterval.toNat ∧ readRegister s 0x08 = s.lastFill ∧
    readRegister s 0x09 = s.lastWrite ∧ readRegister s 0x0A = s.now ∧
    (readRegister s 0x0B).toNat =
      (if s.solidValid = true then 2 ^ 24 else 0) + s.solidPixel.r.toNat * 65536 +
        s.solidPixel.g.toNat * 256 + s.solidPixel.b.toNat ∧
    (readRegister s 0x10).toNat = s.chasePos.toNat ∧ (readRegister s 0x11).toNat = s.scPos.toNat ∧
    (readRegister s 0x12).toNat = (if s.scDir = .up then 0 else 1) ∧
    (readRegister s 0x13).toNat = s.mtPos.toNat ∧
    (∀ n, 0x0B < n → n < 0x10 ∨ 0x13 < n → readRegister s n = 0) ∧
    (∀ n, readSpace s .cr n = some (readRegister s n)) ∧
    (∀ k, (readSpace s .pal k).map BitVec.toNat = some (packPixel (pal (k % 256))).toNat) ∧
    ∀ i, i < s.numPixels →
      (readSpace s .buf i).map BitVec.toNat = some (packPixel (s.buf.read black i)).toNat ∧
      (readSpace s .twLife i).map BitVec.toNat = some (s.tw.life.read 0#8 i).toNat ∧
      (readSpace s .spLife i).map BitVec.toNat = some (s.sp.life.read 0#8 i).toNat ∧
      (readSpace s .cfLife i).map BitVec.toNat = some (s.cf.life.read 0#8 i).toNat ∧
      (readSpace s .heat i).map BitVec.toNat = some (s.heat.read 0#8 i).toNat ∧
      (readSpace s .twCol i).map BitVec.toNat = some (packPixel (s.tw.col.read black i)).toNat ∧
      (readSpace s .spCol i).map BitVec.toNat = some (packPixel (s.sp.col.read black i)).toNat ∧
      (readSpace s .cfCol i).map BitVec.toNat = some (packPixel (s.cf.col.read black i)).toNat
end

