-- ==== Sys2Proof/Laws/Decode.lean ====
section
/-!
SUPPORT. The fields of a command word and the packing of a pixel (00_scope R9, 30_encoding R90, R91).
-/

namespace Sys2Proof

/-- Concatenation as a number. -/
theorem toNat_concat {m n : Nat} (a : BitVec m) (b : BitVec n) :
    (a ++ b).toNat = a.toNat * 2 ^ n + b.toNat := by
  rw [BitVec.toNat_append, ← Nat.shiftLeft_add_eq_or_of_lt b.isLt, Nat.shiftLeft_eq]

/-- A bit field as a number. -/
theorem toNat_field {n : Nat} (w : BitVec n) (lo len : Nat) :
    (w.extractLsb' lo len).toNat = w.toNat / 2 ^ lo % 2 ^ len := by
  rw [BitVec.extractLsb'_toNat, Nat.shiftRight_eq_div_pow]

@[simp] theorem opField_append (op : BitVec 8) (imm : BitVec 24) : opField (op ++ imm) = op := by
  apply BitVec.eq_of_toNat_eq
  have := op.isLt
  have := imm.isLt
  rw [opField, toNat_field, toNat_concat]
  omega

@[simp] theorem immField_append (op : BitVec 8) (imm : BitVec 24) : immField (op ++ imm) = imm := by
  apply BitVec.eq_of_toNat_eq
  have := op.isLt
  have := imm.isLt
  rw [immField, toNat_field, toNat_concat]
  omega

/-- A command word is its two fields. -/
theorem append_fields (w : BitVec 32) : opField w ++ immField w = w := by
  apply BitVec.eq_of_toNat_eq
  have := w.isLt
  rw [toNat_concat, opField, immField, toNat_field, toNat_field]
  omega

/-- A packed pixel as a number: `r*65536 + g*256 + b` (00_scope R9). -/
theorem packPixel_toNat (c : Pixel) :
    (Machine.packPixel c).toNat = c.r.toNat * 65536 + c.g.toNat * 256 + c.b.toNat := by
  rw [Machine.packPixel, toNat_concat, toNat_concat]
  omega

/-- Unpacking a packed pixel gives it back (00_scope R9). -/
@[simp] theorem unpack_pack (c : Pixel) : Machine.unpackPixel (Machine.packPixel c) = c := by
  obtain ⟨r, g, b⟩ := c
  have := r.isLt
  have := g.isLt
  have := b.isLt
  have hw := packPixel_toNat ⟨r, g, b⟩
  simp only [Machine.unpackPixel, Pixel.mk.injEq]
  refine ⟨?_, ?_, ?_⟩ <;> apply BitVec.eq_of_toNat_eq <;> rw [toNat_field, hw] <;> simp only <;> omega

/-- Packing an unpacked word gives it back (00_scope R9). -/
@[simp] theorem pack_unpack (w : BitVec 24) : Machine.packPixel (Machine.unpackPixel w) = w := by
  apply BitVec.eq_of_toNat_eq
  have := w.isLt
  rw [packPixel_toNat]
  simp only [Machine.unpackPixel, toNat_field]
  omega

/-- A 24-bit two's-complement integer survives its encoding (30_encoding R91). -/
theorem signed24_ofInt {z : Int} (h : int24Ok z = true) : signed24 (BitVec.ofInt 24 z) = z := by
  simp only [int24Ok, Bool.and_eq_true, decide_eq_true_eq] at h
  simp only [signed24, BitVec.toInt_ofInt]
  exact Int.bmod_eq_of_le (by omega) (by omega)

end Sys2Proof
end

