-- ==== Sys2Proof/Laws/Memory.lean ====
section
/-!
SUPPORT. What the memory operations do: a read after a write, a whole-strip update, and that every operation
keeps the canonical form and the index bound (20_memory R65, R66).
-/

namespace Sys2Proof.Machine

variable {α : Type}

@[simp] theorem Memory.read_nil (z : α) (a : Nat) : Memory.read z [] a = z := rfl

theorem Memory.read_erase_self (z : α) (m : Memory α) (a : Nat) : (m.erase a).read z a = z := by
  induction m with
  | nil => rfl
  | cons e m ih =>
    by_cases h : e.1 = a
    · simpa [Memory.erase, h] using ih
    · have : a ≠ e.1 := fun c => h c.symm
      simpa [Memory.erase, h, Memory.read, this] using ih

theorem Memory.read_erase_other (z : α) (m : Memory α) {a b : Nat} (hab : b ≠ a) :
    (m.erase a).read z b = m.read z b := by
  induction m with
  | nil => rfl
  | cons e m ih =>
    by_cases h : e.1 = a
    · have hb : b ≠ e.1 := fun c => hab (c.trans h)
      simpa [Memory.erase, h, Memory.read, hb, hab] using ih
    · have hcons : Memory.erase (e :: m) a = e :: Memory.erase m a := by simp [Memory.erase, h]
      rw [hcons]
      simp only [Memory.read, ih]

theorem Memory.read_place_self (z : α) (m : Memory α) (a : Nat) (v : α) (h : ∀ e ∈ m, e.1 ≠ a) :
    (m.place a v).read z a = v := by
  induction m with
  | nil => simp [Memory.place, Memory.read]
  | cons e m ih =>
    have he : a ≠ e.1 := fun c => h e (by simp) c.symm
    have hm : ∀ e' ∈ m, e'.1 ≠ a := fun e' he' => h e' (by simp [he'])
    unfold Memory.place
    split
    · simp [Memory.read]
    · simpa [Memory.read, he] using ih hm

theorem Memory.read_place_other (z : α) (m : Memory α) {a b : Nat} (v : α) (hab : b ≠ a) :
    (m.place a v).read z b = m.read z b := by
  induction m with
  | nil => simp [Memory.place, Memory.read, hab]
  | cons e m ih =>
    unfold Memory.place
    split
    · simp [Memory.read, hab]
    · simp only [Memory.read]
      split
      · rfl
      · exact ih

theorem Memory.ne_of_mem_erase {m : Memory α} {a : Nat} : ∀ e ∈ m.erase a, e.1 ≠ a := by
  intro e he
  simpa using (List.mem_filter.mp he).2

variable [DecidableEq α]

/-- A read of the index just written gives the value written. -/
@[simp] theorem Memory.read_write_self (z : α) (m : Memory α) (a : Nat) (v : α) :
    (m.write z a v).read z a = v := by
  unfold Memory.write
  split
  · next h => rw [Memory.read_erase_self, h]
  · exact Memory.read_place_self z _ a v Memory.ne_of_mem_erase

/-- A write leaves every other index alone. -/
theorem Memory.read_write_other (z : α) (m : Memory α) {a b : Nat} (v : α) (hab : b ≠ a) :
    (m.write z a v).read z b = m.read z b := by
  unfold Memory.write
  split
  · exact Memory.read_erase_other z m hab
  · rw [Memory.read_place_other z _ v hab, Memory.read_erase_other z m hab]

theorem Memory.read_write (z : α) (m : Memory α) (a b : Nat) (v : α) :
    (m.write z a v).read z b = if b = a then v else m.read z b := by
  split
  · next h => rw [h, Memory.read_write_self]
  · next h => exact Memory.read_write_other z m v h

/-- A whole-strip update changes every index below `n`, from its old element, and no other. -/
theorem Memory.read_updateAll (z : α) (n : Nat) (f : Nat → α → α) (m : Memory α) (i : Nat) :
    (m.updateAll z n f).read z i = if i < n then f i (m.read z i) else m.read z i := by
  unfold Memory.updateAll
  induction n with
  | zero => simp
  | succ n ih =>
    rw [List.range_succ, List.foldl_append]
    simp only [List.foldl_cons, List.foldl_nil]
    rw [Memory.read_write]
    by_cases h : i = n
    · subst h
      simp only [if_true, ih, Nat.lt_irrefl, if_false, Nat.lt_succ_self]
    · rw [if_neg h, ih]
      have : i < n ↔ i < n + 1 := by omega
      simp [this]

/-! ## The canonical form -/

omit [DecidableEq α] in
theorem Memory.below_iff {n : Nat} {m : Memory α} : m.below n = true ↔ ∀ e ∈ m, e.1 < n := by
  simp [Memory.below]

theorem Memory.wfFrom_mono {z : α} {lo lo' : Nat} {m : Memory α} (h : Memory.wfFrom z lo m = true)
    (hlo : lo' ≤ lo) : Memory.wfFrom z lo' m = true := by
  cases m with
  | nil => rfl
  | cons e m =>
    simp only [Memory.wfFrom, Bool.and_eq_true, decide_eq_true_eq] at h ⊢
    exact ⟨⟨by omega, h.1.2⟩, h.2⟩

theorem Memory.wfFrom_erase {z : α} (a : Nat) {lo : Nat} {m : Memory α}
    (h : Memory.wfFrom z lo m = true) : Memory.wfFrom z lo (m.erase a) = true := by
  induction m generalizing lo with
  | nil => rfl
  | cons e m ih =>
    simp only [Memory.wfFrom, Bool.and_eq_true, decide_eq_true_eq] at h
    by_cases he : e.1 = a
    · have := Memory.wfFrom_mono (ih h.2) (show lo ≤ e.1 + 1 by omega)
      simpa [Memory.erase, he] using this
    · have := ih h.2
      simp only [Memory.erase, he, List.filter_cons, ne_eq, not_false_eq_true, decide_true, if_true,
        Memory.wfFrom, Bool.and_eq_true, decide_eq_true_eq]
      exact ⟨h.1, this⟩

theorem Memory.wfFrom_place {z : α} {a : Nat} {v : α} (hv : v ≠ z) {lo : Nat} {m : Memory α}
    (h : Memory.wfFrom z lo m = true) (hm : ∀ e ∈ m, e.1 ≠ a) (ha : lo ≤ a) :
    Memory.wfFrom z lo (m.place a v) = true := by
  induction m generalizing lo with
  | nil => simp [Memory.place, Memory.wfFrom, hv, ha]
  | cons e m ih =>
    simp only [Memory.wfFrom, Bool.and_eq_true, decide_eq_true_eq] at h
    have he : e.1 ≠ a := hm e (by simp)
    have hm' : ∀ e' ∈ m, e'.1 ≠ a := fun e' he' => hm e' (by simp [he'])
    unfold Memory.place
    split
    · next hlt =>
      simp only [Memory.wfFrom, Bool.and_eq_true, decide_eq_true_eq]
      exact ⟨⟨ha, hv⟩, ⟨by omega, h.1.2⟩, h.2⟩
    · next hlt =>
      simp only [Memory.wfFrom, Bool.and_eq_true, decide_eq_true_eq]
      exact ⟨h.1, ih h.2 hm' (by omega)⟩

/-- A write keeps the canonical form. -/
theorem Memory.wf_write {z : α} {m : Memory α} (h : m.wf z = true) (a : Nat) (v : α) :
    (m.write z a v).wf z = true := by
  unfold Memory.write
  split
  · exact Memory.wfFrom_erase a h
  · next hv =>
    exact Memory.wfFrom_place hv (Memory.wfFrom_erase a h) Memory.ne_of_mem_erase (Nat.zero_le _)

/-- A write below the bound keeps the bound. -/
theorem Memory.below_write {z : α} {n : Nat} {m : Memory α} (h : m.below n = true) {a : Nat}
    (ha : a < n) (v : α) : (m.write z a v).below n = true := by
  rw [Memory.below_iff] at h ⊢
  have herase : ∀ e ∈ m.erase a, e.1 < n := fun e he => h e (List.mem_filter.mp he).1
  unfold Memory.write
  split
  · exact herase
  · generalize m.erase a = m' at herase
    induction m' with
    | nil => intro e he; simp [Memory.place] at he; simp [he, ha]
    | cons e' m' ih =>
      intro e he
      unfold Memory.place at he
      split at he
      · rcases List.mem_cons.mp he with rfl | he
        · exact ha
        · exact herase e he
      · rcases List.mem_cons.mp he with rfl | he
        · exact herase _ (by simp)
        · exact ih (fun x hx => herase x (by simp [hx])) e he

/-- A whole-strip update keeps the canonical form. -/
theorem Memory.wf_updateAll {z : α} {m : Memory α} (h : m.wf z = true) (n : Nat) (f : Nat → α → α) :
    (m.updateAll z n f).wf z = true := by
  unfold Memory.updateAll
  induction n with
  | zero => simpa using h
  | succ n ih =>
    rw [List.range_succ, List.foldl_append]
    exact Memory.wf_write ih _ _

/-- A whole-strip update of a strip within the bound keeps the bound. -/
theorem Memory.below_updateAll {z : α} {b : Nat} {m : Memory α} (h : m.below b = true) {n : Nat}
    (hn : n ≤ b) (f : Nat → α → α) : (m.updateAll z n f).below b = true := by
  unfold Memory.updateAll
  induction n with
  | zero => simpa using h
  | succ n ih =>
    rw [List.range_succ, List.foldl_append]
    exact Memory.below_write (ih (by omega)) (by omega) _

end Sys2Proof.Machine
end

