-- ==== Sys2Proof/Laws/State.lean ====
section
/-!
SUPPORT. One lemma per field per named update of the state, each true by rfl, so that no proof unfolds a
record update.
-/

namespace Sys2Proof.Machine

/-! ## afterClock -/

@[simp] theorem afterClock_numLeds (s : State) : (afterClock s).numLeds = s.numLeds := rfl
@[simp] theorem afterClock_brightness (s : State) : (afterClock s).brightness = s.brightness := rfl
@[simp] theorem afterClock_fillInterval (s : State) : (afterClock s).fillInterval = s.fillInterval := rfl
@[simp] theorem afterClock_writeInterval (s : State) : (afterClock s).writeInterval = s.writeInterval := rfl
@[simp] theorem afterClock_lastFill (s : State) : (afterClock s).lastFill = s.lastFill := rfl
@[simp] theorem afterClock_lastWrite (s : State) : (afterClock s).lastWrite = s.lastWrite := rfl
@[simp] theorem afterClock_phase (s : State) : (afterClock s).phase = s.phase := rfl
@[simp] theorem afterClock_speed (s : State) : (afterClock s).speed = s.speed := rfl
@[simp] theorem afterClock_mode (s : State) : (afterClock s).mode = s.mode := rfl
@[simp] theorem afterClock_solidValid (s : State) : (afterClock s).solidValid = s.solidValid := rfl
@[simp] theorem afterClock_solidPixel (s : State) : (afterClock s).solidPixel = s.solidPixel := rfl
@[simp] theorem afterClock_run (s : State) : (afterClock s).run = s.run := rfl
@[simp] theorem afterClock_pending (s : State) : (afterClock s).pending = s.pending := rfl
@[simp] theorem afterClock_cfgErr (s : State) : (afterClock s).cfgErr = s.cfgErr := rfl
@[simp] theorem afterClock_now (s : State) : (afterClock s).now = s.now := rfl
@[simp] theorem afterClock_stage (s : State) : (afterClock s).stage = s.stage := rfl
@[simp] theorem afterClock_chasePos (s : State) : (afterClock s).chasePos = s.chasePos := rfl
@[simp] theorem afterClock_scPos (s : State) : (afterClock s).scPos = s.scPos := rfl
@[simp] theorem afterClock_scDir (s : State) : (afterClock s).scDir = s.scDir := rfl
@[simp] theorem afterClock_mtPos (s : State) : (afterClock s).mtPos = s.mtPos := rfl
@[simp] theorem afterClock_buf (s : State) : (afterClock s).buf = s.buf := rfl
@[simp] theorem afterClock_tw (s : State) : (afterClock s).tw = s.tw := rfl
@[simp] theorem afterClock_sp (s : State) : (afterClock s).sp = s.sp := rfl
@[simp] theorem afterClock_cf (s : State) : (afterClock s).cf = s.cf := rfl
@[simp] theorem afterClock_heat (s : State) : (afterClock s).heat = s.heat := rfl
@[simp] theorem afterClock_tuning (s : State) : (afterClock s).tuning = s.tuning := rfl
@[simp] theorem afterClock_clock (s : State) : (afterClock s).clock = s.clock.advance := rfl
@[simp] theorem afterClock_random (s : State) : (afterClock s).random = s.random := rfl
@[simp] theorem afterClock_writer (s : State) : (afterClock s).writer = s.writer := rfl
@[simp] theorem afterClock_turns (s : State) : (afterClock s).turns = s.turns := rfl
@[simp] theorem afterClock_commands (s : State) : (afterClock s).commands = s.commands := rfl
@[simp] theorem afterClock_resets (s : State) : (afterClock s).resets = s.resets := rfl
@[simp] theorem afterClock_frames (s : State) : (afterClock s).frames = s.frames := rfl
@[simp] theorem afterClock_log (s : State) : (afterClock s).log = s.log := rfl
@[simp] theorem afterClock_numPixels (s : State) : (afterClock s).numPixels = s.numPixels := rfl

/-! ## emitLog -/

@[simp] theorem emitLog_numLeds (s : State) (c i : Byte) : (emitLog s c i).numLeds = s.numLeds := rfl
@[simp] theorem emitLog_brightness (s : State) (c i : Byte) :
    (emitLog s c i).brightness = s.brightness := rfl
@[simp] theorem emitLog_fillInterval (s : State) (c i : Byte) :
    (emitLog s c i).fillInterval = s.fillInterval := rfl
@[simp] theorem emitLog_writeInterval (s : State) (c i : Byte) :
    (emitLog s c i).writeInterval = s.writeInterval := rfl
@[simp] theorem emitLog_lastFill (s : State) (c i : Byte) : (emitLog s c i).lastFill = s.lastFill := rfl
@[simp] theorem emitLog_lastWrite (s : State) (c i : Byte) : (emitLog s c i).lastWrite = s.lastWrite := rfl
@[simp] theorem emitLog_phase (s : State) (c i : Byte) : (emitLog s c i).phase = s.phase := rfl
@[simp] theorem emitLog_speed (s : State) (c i : Byte) : (emitLog s c i).speed = s.speed := rfl
@[simp] theorem emitLog_mode (s : State) (c i : Byte) : (emitLog s c i).mode = s.mode := rfl
@[simp] theorem emitLog_solidValid (s : State) (c i : Byte) :
    (emitLog s c i).solidValid = s.solidValid := rfl
@[simp] theorem emitLog_solidPixel (s : State) (c i : Byte) :
    (emitLog s c i).solidPixel = s.solidPixel := rfl
@[simp] theorem emitLog_run (s : State) (c i : Byte) : (emitLog s c i).run = s.run := rfl
@[simp] theorem emitLog_pending (s : State) (c i : Byte) : (emitLog s c i).pending = s.pending := rfl
@[simp] theorem emitLog_cfgErr (s : State) (c i : Byte) : (emitLog s c i).cfgErr = s.cfgErr := rfl
@[simp] theorem emitLog_now (s : State) (c i : Byte) : (emitLog s c i).now = s.now := rfl
@[simp] theorem emitLog_stage (s : State) (c i : Byte) : (emitLog s c i).stage = s.stage := rfl
@[simp] theorem emitLog_chasePos (s : State) (c i : Byte) : (emitLog s c i).chasePos = s.chasePos := rfl
@[simp] theorem emitLog_scPos (s : State) (c i : Byte) : (emitLog s c i).scPos = s.scPos := rfl
@[simp] theorem emitLog_scDir (s : State) (c i : Byte) : (emitLog s c i).scDir = s.scDir := rfl
@[simp] theorem emitLog_mtPos (s : State) (c i : Byte) : (emitLog s c i).mtPos = s.mtPos := rfl
@[simp] theorem emitLog_buf (s : State) (c i : Byte) : (emitLog s c i).buf = s.buf := rfl
@[simp] theorem emitLog_tw (s : State) (c i : Byte) : (emitLog s c i).tw = s.tw := rfl
@[simp] theorem emitLog_sp (s : State) (c i : Byte) : (emitLog s c i).sp = s.sp := rfl
@[simp] theorem emitLog_cf (s : State) (c i : Byte) : (emitLog s c i).cf = s.cf := rfl
@[simp] theorem emitLog_heat (s : State) (c i : Byte) : (emitLog s c i).heat = s.heat := rfl
@[simp] theorem emitLog_tuning (s : State) (c i : Byte) : (emitLog s c i).tuning = s.tuning := rfl
@[simp] theorem emitLog_clock (s : State) (c i : Byte) : (emitLog s c i).clock = s.clock := rfl
@[simp] theorem emitLog_random (s : State) (c i : Byte) : (emitLog s c i).random = s.random := rfl
@[simp] theorem emitLog_writer (s : State) (c i : Byte) : (emitLog s c i).writer = s.writer := rfl
@[simp] theorem emitLog_turns (s : State) (c i : Byte) : (emitLog s c i).turns = s.turns := rfl
@[simp] theorem emitLog_commands (s : State) (c i : Byte) : (emitLog s c i).commands = s.commands := rfl
@[simp] theorem emitLog_resets (s : State) (c i : Byte) : (emitLog s c i).resets = s.resets := rfl
@[simp] theorem emitLog_frames (s : State) (c i : Byte) : (emitLog s c i).frames = s.frames := rfl
@[simp] theorem emitLog_log (s : State) (c i : Byte) : (emitLog s c i).log = s.log ++ [⟨c, i⟩] := rfl
@[simp] theorem emitLog_numPixels (s : State) (c i : Byte) : (emitLog s c i).numPixels = s.numPixels := rfl

/-! ## handOver -/

@[simp] theorem handOver_numLeds (s : State) (f : Frame) : (handOver s f).numLeds = s.numLeds := rfl
@[simp] theorem handOver_brightness (s : State) (f : Frame) :
    (handOver s f).brightness = s.brightness := rfl
@[simp] theorem handOver_fillInterval (s : State) (f : Frame) :
    (handOver s f).fillInterval = s.fillInterval := rfl
@[simp] theorem handOver_writeInterval (s : State) (f : Frame) :
    (handOver s f).writeInterval = s.writeInterval := rfl
@[simp] theorem handOver_lastFill (s : State) (f : Frame) : (handOver s f).lastFill = s.lastFill := rfl
@[simp] theorem handOver_lastWrite (s : State) (f : Frame) : (handOver s f).lastWrite = s.lastWrite := rfl
@[simp] theorem handOver_phase (s : State) (f : Frame) : (handOver s f).phase = s.phase := rfl
@[simp] theorem handOver_speed (s : State) (f : Frame) : (handOver s f).speed = s.speed := rfl
@[simp] theorem handOver_mode (s : State) (f : Frame) : (handOver s f).mode = s.mode := rfl
@[simp] theorem handOver_solidValid (s : State) (f : Frame) :
    (handOver s f).solidValid = s.solidValid := rfl
@[simp] theorem handOver_solidPixel (s : State) (f : Frame) :
    (handOver s f).solidPixel = s.solidPixel := rfl
@[simp] theorem handOver_run (s : State) (f : Frame) : (handOver s f).run = s.run := rfl
@[simp] theorem handOver_pending (s : State) (f : Frame) : (handOver s f).pending = s.pending := rfl
@[simp] theorem handOver_cfgErr (s : State) (f : Frame) : (handOver s f).cfgErr = s.cfgErr := rfl
@[simp] theorem handOver_now (s : State) (f : Frame) : (handOver s f).now = s.now := rfl
@[simp] theorem handOver_stage (s : State) (f : Frame) : (handOver s f).stage = s.stage := rfl
@[simp] theorem handOver_chasePos (s : State) (f : Frame) : (handOver s f).chasePos = s.chasePos := rfl
@[simp] theorem handOver_scPos (s : State) (f : Frame) : (handOver s f).scPos = s.scPos := rfl
@[simp] theorem handOver_scDir (s : State) (f : Frame) : (handOver s f).scDir = s.scDir := rfl
@[simp] theorem handOver_mtPos (s : State) (f : Frame) : (handOver s f).mtPos = s.mtPos := rfl
@[simp] theorem handOver_buf (s : State) (f : Frame) : (handOver s f).buf = s.buf := rfl
@[simp] theorem handOver_tw (s : State) (f : Frame) : (handOver s f).tw = s.tw := rfl
@[simp] theorem handOver_sp (s : State) (f : Frame) : (handOver s f).sp = s.sp := rfl
@[simp] theorem handOver_cf (s : State) (f : Frame) : (handOver s f).cf = s.cf := rfl
@[simp] theorem handOver_heat (s : State) (f : Frame) : (handOver s f).heat = s.heat := rfl
@[simp] theorem handOver_tuning (s : State) (f : Frame) : (handOver s f).tuning = s.tuning := rfl
@[simp] theorem handOver_clock (s : State) (f : Frame) : (handOver s f).clock = s.clock := rfl
@[simp] theorem handOver_random (s : State) (f : Frame) : (handOver s f).random = s.random := rfl
@[simp] theorem handOver_writer (s : State) (f : Frame) : (handOver s f).writer = s.writer.advance := rfl
@[simp] theorem handOver_turns (s : State) (f : Frame) : (handOver s f).turns = s.turns := rfl
@[simp] theorem handOver_commands (s : State) (f : Frame) : (handOver s f).commands = s.commands := rfl
@[simp] theorem handOver_resets (s : State) (f : Frame) : (handOver s f).resets = s.resets := rfl
@[simp] theorem handOver_frames (s : State) (f : Frame) : (handOver s f).frames = s.frames ++ [f] := rfl
@[simp] theorem handOver_log (s : State) (f : Frame) : (handOver s f).log = s.log := rfl
@[simp] theorem handOver_numPixels (s : State) (f : Frame) : (handOver s f).numPixels = s.numPixels := rfl

/-! ## paintStrip -/

@[simp] theorem paintStrip_numLeds (s : State) (f : Nat → Pixel) :
    (paintStrip s f).numLeds = s.numLeds := rfl
@[simp] theorem paintStrip_brightness (s : State) (f : Nat → Pixel) :
    (paintStrip s f).brightness = s.brightness := rfl
@[simp] theorem paintStrip_fillInterval (s : State) (f : Nat → Pixel) :
    (paintStrip s f).fillInterval = s.fillInterval := rfl
@[simp] theorem paintStrip_writeInterval (s : State) (f : Nat → Pixel) :
    (paintStrip s f).writeInterval = s.writeInterval := rfl
@[simp] theorem paintStrip_lastFill (s : State) (f : Nat → Pixel) :
    (paintStrip s f).lastFill = s.lastFill := rfl
@[simp] theorem paintStrip_lastWrite (s : State) (f : Nat → Pixel) :
    (paintStrip s f).lastWrite = s.lastWrite := rfl
@[simp] theorem paintStrip_phase (s : State) (f : Nat → Pixel) : (paintStrip s f).phase = s.phase := rfl
@[simp] theorem paintStrip_speed (s : State) (f : Nat → Pixel) : (paintStrip s f).speed = s.speed := rfl
@[simp] theorem paintStrip_mode (s : State) (f : Nat → Pixel) : (paintStrip s f).mode = s.mode := rfl
@[simp] theorem paintStrip_solidValid (s : State) (f : Nat → Pixel) :
    (paintStrip s f).solidValid = s.solidValid := rfl
@[simp] theorem paintStrip_solidPixel (s : State) (f : Nat → Pixel) :
    (paintStrip s f).solidPixel = s.solidPixel := rfl
@[simp] theorem paintStrip_run (s : State) (f : Nat → Pixel) : (paintStrip s f).run = s.run := rfl
@[simp] theorem paintStrip_pending (s : State) (f : Nat → Pixel) :
    (paintStrip s f).pending = s.pending := rfl
@[simp] theorem paintStrip_cfgErr (s : State) (f : Nat → Pixel) : (paintStrip s f).cfgErr = s.cfgErr := rfl
@[simp] theorem paintStrip_now (s : State) (f : Nat → Pixel) : (paintStrip s f).now = s.now := rfl
@[simp] theorem paintStrip_stage (s : State) (f : Nat → Pixel) : (paintStrip s f).stage = s.stage := rfl
@[simp] theorem paintStrip_chasePos (s : State) (f : Nat → Pixel) :
    (paintStrip s f).chasePos = s.chasePos := rfl
@[simp] theorem paintStrip_scPos (s : State) (f : Nat → Pixel) : (paintStrip s f).scPos = s.scPos := rfl
@[simp] theorem paintStrip_scDir (s : State) (f : Nat → Pixel) : (paintStrip s f).scDir = s.scDir := rfl
@[simp] theorem paintStrip_mtPos (s : State) (f : Nat → Pixel) : (paintStrip s f).mtPos = s.mtPos := rfl
@[simp] theorem paintStrip_buf (s : State) (f : Nat → Pixel) :
    (paintStrip s f).buf = s.buf.updateAll black s.numPixels (fun i _ => f i) := rfl
@[simp] theorem paintStrip_tw (s : State) (f : Nat → Pixel) : (paintStrip s f).tw = s.tw := rfl
@[simp] theorem paintStrip_sp (s : State) (f : Nat → Pixel) : (paintStrip s f).sp = s.sp := rfl
@[simp] theorem paintStrip_cf (s : State) (f : Nat → Pixel) : (paintStrip s f).cf = s.cf := rfl
@[simp] theorem paintStrip_heat (s : State) (f : Nat → Pixel) : (paintStrip s f).heat = s.heat := rfl
@[simp] theorem paintStrip_tuning (s : State) (f : Nat → Pixel) : (paintStrip s f).tuning = s.tuning := rfl
@[simp] theorem paintStrip_clock (s : State) (f : Nat → Pixel) : (paintStrip s f).clock = s.clock := rfl
@[simp] theorem paintStrip_random (s : State) (f : Nat → Pixel) : (paintStrip s f).random = s.random := rfl
@[simp] theorem paintStrip_writer (s : State) (f : Nat → Pixel) : (paintStrip s f).writer = s.writer := rfl
@[simp] theorem paintStrip_turns (s : State) (f : Nat → Pixel) : (paintStrip s f).turns = s.turns := rfl
@[simp] theorem paintStrip_commands (s : State) (f : Nat → Pixel) :
    (paintStrip s f).commands = s.commands := rfl
@[simp] theorem paintStrip_resets (s : State) (f : Nat → Pixel) : (paintStrip s f).resets = s.resets := rfl
@[simp] theorem paintStrip_frames (s : State) (f : Nat → Pixel) : (paintStrip s f).frames = s.frames := rfl
@[simp] theorem paintStrip_log (s : State) (f : Nat → Pixel) : (paintStrip s f).log = s.log := rfl
@[simp] theorem paintStrip_numPixels (s : State) (f : Nat → Pixel) : (paintStrip s f).numPixels = s.numPixels := rfl

/-! ## startLoop -/

@[simp] theorem startLoop_numLeds (s : State) : (startLoop s).numLeds = s.numLeds := rfl
@[simp] theorem startLoop_brightness (s : State) : (startLoop s).brightness = s.brightness := rfl
@[simp] theorem startLoop_fillInterval (s : State) : (startLoop s).fillInterval = s.fillInterval := rfl
@[simp] theorem startLoop_writeInterval (s : State) : (startLoop s).writeInterval = s.writeInterval := rfl
@[simp] theorem startLoop_lastFill (s : State) : (startLoop s).lastFill = clockAnswer s := rfl
@[simp] theorem startLoop_lastWrite (s : State) : (startLoop s).lastWrite = clockAnswer s := rfl
@[simp] theorem startLoop_phase (s : State) : (startLoop s).phase = s.phase := rfl
@[simp] theorem startLoop_speed (s : State) : (startLoop s).speed = s.speed := rfl
@[simp] theorem startLoop_mode (s : State) : (startLoop s).mode = s.mode := rfl
@[simp] theorem startLoop_solidValid (s : State) : (startLoop s).solidValid = s.solidValid := rfl
@[simp] theorem startLoop_solidPixel (s : State) : (startLoop s).solidPixel = s.solidPixel := rfl
@[simp] theorem startLoop_run (s : State) : (startLoop s).run = true := rfl
@[simp] theorem startLoop_pending (s : State) : (startLoop s).pending = s.pending := rfl
@[simp] theorem startLoop_cfgErr (s : State) : (startLoop s).cfgErr = s.cfgErr := rfl
@[simp] theorem startLoop_now (s : State) : (startLoop s).now = s.now := rfl
@[simp] theorem startLoop_stage (s : State) : (startLoop s).stage = s.stage := rfl
@[simp] theorem startLoop_chasePos (s : State) : (startLoop s).chasePos = s.chasePos := rfl
@[simp] theorem startLoop_scPos (s : State) : (startLoop s).scPos = s.scPos := rfl
@[simp] theorem startLoop_scDir (s : State) : (startLoop s).scDir = s.scDir := rfl
@[simp] theorem startLoop_mtPos (s : State) : (startLoop s).mtPos = s.mtPos := rfl
@[simp] theorem startLoop_buf (s : State) : (startLoop s).buf = s.buf := rfl
@[simp] theorem startLoop_tw (s : State) : (startLoop s).tw = s.tw := rfl
@[simp] theorem startLoop_sp (s : State) : (startLoop s).sp = s.sp := rfl
@[simp] theorem startLoop_cf (s : State) : (startLoop s).cf = s.cf := rfl
@[simp] theorem startLoop_heat (s : State) : (startLoop s).heat = s.heat := rfl
@[simp] theorem startLoop_tuning (s : State) : (startLoop s).tuning = s.tuning := rfl
@[simp] theorem startLoop_clock (s : State) : (startLoop s).clock = s.clock.advance := rfl
@[simp] theorem startLoop_random (s : State) : (startLoop s).random = s.random := rfl
@[simp] theorem startLoop_writer (s : State) : (startLoop s).writer = s.writer := rfl
@[simp] theorem startLoop_turns (s : State) : (startLoop s).turns = s.turns := rfl
@[simp] theorem startLoop_commands (s : State) : (startLoop s).commands = s.commands := rfl
@[simp] theorem startLoop_resets (s : State) : (startLoop s).resets = s.resets := rfl
@[simp] theorem startLoop_frames (s : State) : (startLoop s).frames = s.frames := rfl
@[simp] theorem startLoop_log (s : State) : (startLoop s).log = s.log := rfl
@[simp] theorem startLoop_numPixels (s : State) : (startLoop s).numPixels = s.numPixels := rfl

/-! ## sampleNow -/

@[simp] theorem sampleNow_numLeds (s : State) : (sampleNow s).numLeds = s.numLeds := rfl
@[simp] theorem sampleNow_brightness (s : State) : (sampleNow s).brightness = s.brightness := rfl
@[simp] theorem sampleNow_fillInterval (s : State) : (sampleNow s).fillInterval = s.fillInterval := rfl
@[simp] theorem sampleNow_writeInterval (s : State) : (sampleNow s).writeInterval = s.writeInterval := rfl
@[simp] theorem sampleNow_lastFill (s : State) : (sampleNow s).lastFill = s.lastFill := rfl
@[simp] theorem sampleNow_lastWrite (s : State) : (sampleNow s).lastWrite = s.lastWrite := rfl
@[simp] theorem sampleNow_phase (s : State) : (sampleNow s).phase = s.phase := rfl
@[simp] theorem sampleNow_speed (s : State) : (sampleNow s).speed = s.speed := rfl
@[simp] theorem sampleNow_mode (s : State) : (sampleNow s).mode = s.mode := rfl
@[simp] theorem sampleNow_solidValid (s : State) : (sampleNow s).solidValid = s.solidValid := rfl
@[simp] theorem sampleNow_solidPixel (s : State) : (sampleNow s).solidPixel = s.solidPixel := rfl
@[simp] theorem sampleNow_run (s : State) : (sampleNow s).run = s.run := rfl
@[simp] theorem sampleNow_pending (s : State) : (sampleNow s).pending = s.pending := rfl
@[simp] theorem sampleNow_cfgErr (s : State) : (sampleNow s).cfgErr = s.cfgErr := rfl
@[simp] theorem sampleNow_now (s : State) : (sampleNow s).now = clockAnswer s := rfl
@[simp] theorem sampleNow_stage (s : State) : (sampleNow s).stage = s.stage := rfl
@[simp] theorem sampleNow_chasePos (s : State) : (sampleNow s).chasePos = s.chasePos := rfl
@[simp] theorem sampleNow_scPos (s : State) : (sampleNow s).scPos = s.scPos := rfl
@[simp] theorem sampleNow_scDir (s : State) : (sampleNow s).scDir = s.scDir := rfl
@[simp] theorem sampleNow_mtPos (s : State) : (sampleNow s).mtPos = s.mtPos := rfl
@[simp] theorem sampleNow_buf (s : State) : (sampleNow s).buf = s.buf := rfl
@[simp] theorem sampleNow_tw (s : State) : (sampleNow s).tw = s.tw := rfl
@[simp] theorem sampleNow_sp (s : State) : (sampleNow s).sp = s.sp := rfl
@[simp] theorem sampleNow_cf (s : State) : (sampleNow s).cf = s.cf := rfl
@[simp] theorem sampleNow_heat (s : State) : (sampleNow s).heat = s.heat := rfl
@[simp] theorem sampleNow_tuning (s : State) : (sampleNow s).tuning = s.tuning := rfl
@[simp] theorem sampleNow_clock (s : State) : (sampleNow s).clock = s.clock.advance := rfl
@[simp] theorem sampleNow_random (s : State) : (sampleNow s).random = s.random := rfl
@[simp] theorem sampleNow_writer (s : State) : (sampleNow s).writer = s.writer := rfl
@[simp] theorem sampleNow_turns (s : State) : (sampleNow s).turns = s.turns := rfl
@[simp] theorem sampleNow_commands (s : State) : (sampleNow s).commands = s.commands := rfl
@[simp] theorem sampleNow_resets (s : State) : (sampleNow s).resets = s.resets := rfl
@[simp] theorem sampleNow_frames (s : State) : (sampleNow s).frames = s.frames := rfl
@[simp] theorem sampleNow_log (s : State) : (sampleNow s).log = s.log := rfl
@[simp] theorem sampleNow_numPixels (s : State) : (sampleNow s).numPixels = s.numPixels := rfl

/-! ## finishFill -/

@[simp] theorem finishFill_numLeds (s : State) : (finishFill s).numLeds = s.numLeds := rfl
@[simp] theorem finishFill_brightness (s : State) : (finishFill s).brightness = s.brightness := rfl
@[simp] theorem finishFill_fillInterval (s : State) : (finishFill s).fillInterval = s.fillInterval := rfl
@[simp] theorem finishFill_writeInterval (s : State) : (finishFill s).writeInterval = s.writeInterval := rfl
@[simp] theorem finishFill_lastFill (s : State) : (finishFill s).lastFill = s.now := rfl
@[simp] theorem finishFill_lastWrite (s : State) : (finishFill s).lastWrite = s.lastWrite := rfl
@[simp] theorem finishFill_phase (s : State) : (finishFill s).phase = s.phase + s.speed := rfl
@[simp] theorem finishFill_speed (s : State) : (finishFill s).speed = s.speed := rfl
@[simp] theorem finishFill_mode (s : State) : (finishFill s).mode = s.mode := rfl
@[simp] theorem finishFill_solidValid (s : State) : (finishFill s).solidValid = s.solidValid := rfl
@[simp] theorem finishFill_solidPixel (s : State) : (finishFill s).solidPixel = s.solidPixel := rfl
@[simp] theorem finishFill_run (s : State) : (finishFill s).run = s.run := rfl
@[simp] theorem finishFill_pending (s : State) : (finishFill s).pending = s.pending := rfl
@[simp] theorem finishFill_cfgErr (s : State) : (finishFill s).cfgErr = s.cfgErr := rfl
@[simp] theorem finishFill_now (s : State) : (finishFill s).now = s.now := rfl
@[simp] theorem finishFill_stage (s : State) : (finishFill s).stage = s.stage := rfl
@[simp] theorem finishFill_chasePos (s : State) : (finishFill s).chasePos = s.chasePos := rfl
@[simp] theorem finishFill_scPos (s : State) : (finishFill s).scPos = s.scPos := rfl
@[simp] theorem finishFill_scDir (s : State) : (finishFill s).scDir = s.scDir := rfl
@[simp] theorem finishFill_mtPos (s : State) : (finishFill s).mtPos = s.mtPos := rfl
@[simp] theorem finishFill_buf (s : State) : (finishFill s).buf = s.buf := rfl
@[simp] theorem finishFill_tw (s : State) : (finishFill s).tw = s.tw := rfl
@[simp] theorem finishFill_sp (s : State) : (finishFill s).sp = s.sp := rfl
@[simp] theorem finishFill_cf (s : State) : (finishFill s).cf = s.cf := rfl
@[simp] theorem finishFill_heat (s : State) : (finishFill s).heat = s.heat := rfl
@[simp] theorem finishFill_tuning (s : State) : (finishFill s).tuning = s.tuning := rfl
@[simp] theorem finishFill_clock (s : State) : (finishFill s).clock = s.clock := rfl
@[simp] theorem finishFill_random (s : State) : (finishFill s).random = s.random := rfl
@[simp] theorem finishFill_writer (s : State) : (finishFill s).writer = s.writer := rfl
@[simp] theorem finishFill_turns (s : State) : (finishFill s).turns = s.turns := rfl
@[simp] theorem finishFill_commands (s : State) : (finishFill s).commands = s.commands := rfl
@[simp] theorem finishFill_resets (s : State) : (finishFill s).resets = s.resets := rfl
@[simp] theorem finishFill_frames (s : State) : (finishFill s).frames = s.frames := rfl
@[simp] theorem finishFill_log (s : State) : (finishFill s).log = s.log := rfl
@[simp] theorem finishFill_numPixels (s : State) : (finishFill s).numPixels = s.numPixels := rfl

end Sys2Proof.Machine
end

