-- ==== Sys2Proof/Laws/Ops.lean ====
section
/-!
SUPPORT. What each shared operation can do, said once: guards, draws, painting, the mode fault, sequencing.
-/

namespace Sys2Proof.Machine

/-! ## Guards and sequencing -/

@[simp] theorem whenConfigured_ok {s : State} (h : s.cfgErr = false) (k : Result) :
    whenConfigured s k = k := by simp [whenConfigured, h]

@[simp] theorem whenTuned_ok {s : State} (h : tuningLegal s.tuning = true) (k : Result) :
    whenTuned s k = k := by simp [whenTuned, h]

/-- A configured meaning that answers a next state does so with `CFG_ERR = 0`. -/
theorem whenConfigured_next {s t : State} {k : Result} (h : whenConfigured s k = .next t) :
    s.cfgErr = false ∧ k = .next t := by
  unfold whenConfigured at h
  cases hc : s.cfgErr <;> simp [hc] at h
  exact ⟨rfl, h⟩

/-- A tuned meaning that answers a next state does so within the constraints of 00_scope R7. -/
theorem whenTuned_next {s t : State} {k : Result} (h : whenTuned s k = .next t) :
    tuningLegal s.tuning = true ∧ k = .next t := by
  unfold whenTuned at h
  cases hc : tuningLegal s.tuning <;> simp [hc] at h
  exact ⟨rfl, h⟩

/-- A sequence answers a next state only through one. -/
theorem thenNext_next {r : Result} {f : State → State} {t : State} (h : thenNext r f = .next t) :
    ∃ u, r = .next u ∧ t = f u := by
  cases r with
  | next u => exact ⟨u, rfl, by simpa [thenNext] using h.symm⟩
  | fault e => simp [thenNext] at h
  | refused e => simp [thenNext] at h

@[simp] theorem thenNext_of_next (u : State) (f : State → State) :
    thenNext (.next u) f = .next (f u) := rfl

/-! ## Ports -/

/-- `Draw(k)` answers below `k` (60_exceptions R278). -/
theorem drawBelow_lt {k : Nat} (hk : 0 < k) (p : Port Nat) : (drawBelow k p).1 < k :=
  Nat.mod_lt _ hk

@[simp] theorem drawBelow_port (k : Nat) (p : Port Nat) : (drawBelow k p).2 = p.advance := rfl

@[simp] theorem Port.answer_push {α : Type} (free : Nat → α) (p : Port α) (x : α) :
    (p.push x).answer free = x := rfl

@[simp] theorem Port.count_advance {α : Type} (p : Port α) : p.advance.count = p.count + 1 := rfl

/-! ## The log -/

/-- A log event as a number: `code*256 + info` (30_encoding R90). -/
theorem packEvent_toNat (e : LogEvent) : (packEvent e).toNat = e.code.toNat * 256 + e.info.toNat :=
  toNat_concat e.code e.info

/-- Unpacking a packed event gives it back (30_encoding R90). -/
@[simp] theorem unpack_packEvent (e : LogEvent) : unpackEvent (packEvent e) = e := by
  obtain ⟨c, i⟩ := e
  have := c.isLt
  have := i.isLt
  have hw := packEvent_toNat ⟨c, i⟩
  simp only [unpackEvent, LogEvent.mk.injEq]
  refine ⟨?_, ?_⟩ <;> apply BitVec.eq_of_toNat_eq <;> rw [toNat_field, hw] <;> simp only <;> omega

/-- Packing an unpacked word gives it back (30_encoding R90). -/
@[simp] theorem packEvent_unpack (w : BitVec 16) : packEvent (unpackEvent w) = w := by
  apply BitVec.eq_of_toNat_eq
  have := w.isLt
  rw [packEvent_toNat]
  simp only [unpackEvent, toNat_field]
  omega

/-- `Log` puts its event's word at the end of the log port's output (60_exceptions R265). -/
@[simp] theorem logWords_emitLog (s : State) (code info : Byte) :
    logWords (emitLog s code info) = logWords s ++ [packEvent ⟨code, info⟩] := by simp [logWords, emitLog]

/-! ## Painting -/

/-- Painting the strip gives each pixel its colour and touches no index above it. -/
theorem read_paintStrip (s : State) (f : Nat → Pixel) (i : Nat) :
    (paintStrip s f).buf.read black i = if i < s.numPixels then f i else s.buf.read black i := by
  simp [Memory.read_updateAll]

/-- Painting the strip changes `BUF` and nothing else. -/
theorem paintStrip_frame (s : State) (f : Nat → Pixel) : { paintStrip s f with buf := s.buf } = s := rfl

/-- A `ModeFault` adds one log event, paints Rainbow and changes nothing else (60_exceptions R263). -/
theorem takeModeFault_frame (s : State) :
    { takeModeFault s with buf := s.buf, log := s.log } = s ∧
    (takeModeFault s).log = s.log ++ [⟨0x01, s.mode⟩] ∧
    (takeModeFault s).buf = (paintRainbow s).buf := ⟨rfl, rfl, rfl⟩

theorem withPosition_ok {s r : State} {pos : BitVec 16} (h : pos.toNat < s.numPixels) :
    withPosition s pos r = r := by
  unfold withPosition
  rw [if_neg (by omega)]

theorem withPosition_fault {s r : State} {pos : BitVec 16} (h : s.numPixels ≤ pos.toNat) :
    withPosition s pos r = takeModeFault s := by
  unfold withPosition
  rw [if_pos h]

/-- A position register wraps within the strip (41_modes_stateful R150, R156). -/
theorem nextPosition_toNat (s : State) (pos : BitVec 16) (h : 0 < s.numPixels) :
    (nextPosition s pos).toNat = (pos.toNat + 1) % s.numPixels := by
  have h1 : s.numPixels < 2 ^ 16 := s.numLeds.isLt
  unfold nextPosition
  rw [BitVec.toNat_ofNat]
  exact Nat.mod_eq_of_lt (lt_trans (Nat.mod_lt _ h) h1)

/-! ## Resolving -/

theorem resolve_le (n : BitVec 8) : (resolve n).toNat ≤ 16 := by
  unfold resolve
  split
  · assumption
  · decide

/-- An interval is 1 to 1000 milliseconds (44_control_commands R231). -/
theorem rateToInterval_bounds (tie : RateTie) (hz : Int) :
    1 ≤ rateToInterval tie hz ∧ rateToInterval tie hz ≤ 1000 := by
  unfold rateToInterval
  split
  · omega
  · next h =>
    have hpos : 0 < hz.toNat := by omega
    generalize hz.toNat = k at hpos
    have hq : 1000 / k ≤ 1000 := Nat.div_le_self _ _
    have hone : k = 1 ∨ 2 ≤ k := by omega
    rcases hone with rfl | h2
    · cases tie <;> decide
    · have : 1000 / k ≤ 500 := Nat.div_le_of_le_mul (by omega)
      simp only
      split <;> [skip; split] <;> omega

theorem intervalOf_toNat (tie : RateTie) (hz : Int) :
    (intervalOf tie hz).toNat = rateToInterval tie hz := by
  have := rateToInterval_bounds tie hz
  simp only [intervalOf, BitVec.toNat_ofNat]
  omega

end Sys2Proof.Machine
end

