-- ==== Sys2Proof/Laws/Ticks.lean ====
section
/-!
SUPPORT. What the loops of the stateful routines do to each pixel: Meteor's trail, the decay engine, Fire's
cooling (41_modes_stateful R156, R160, R166).
-/

namespace Sys2Proof.Machine

/-! ## The draws of a tick -/

theorem afterDraws_zero (p : Port Nat) : afterDraws p 0 = p := by simp [afterDraws]

theorem advance_afterDraws (p : Port Nat) (j : Nat) : (afterDraws p j).advance = afterDraws p (j + 1) := by
  simp [afterDraws, Port.advance, List.tail_drop, Nat.add_assoc]

theorem drawBelow_afterDraws (k : Nat) (p : Port Nat) (j : Nat) :
    drawBelow k (afterDraws p j) = (drawnNumber p j % k, afterDraws p (j + 1)) := by
  rw [← advance_afterDraws]
  rfl

/-! ## Meteor's trail -/

/-- The trail lights the pixels from the head down to index 0 or the trail's end, and no other. -/
theorem read_paintTrail (trail pos : Nat) (c : Pixel) (m : Memory Pixel) (i : Nat) :
    (paintTrail trail pos c m).read black i =
      if i ≤ pos ∧ pos - i < trail then scale c (trailWeight trail (pos - i)) else m.read black i := by
  unfold paintTrail
  suffices h : ∀ n, ((List.range n).foldl
      (fun m k => if pos ≥ k then m.write black (pos - k) (scale c (trailWeight trail k)) else m) m).read
        black i = if i ≤ pos ∧ pos - i < n then scale c (trailWeight trail (pos - i)) else m.read black i by
    exact h trail
  intro n
  induction n with
  | zero => simp
  | succ n ih =>
    rw [List.range_succ, List.foldl_append]
    simp only [List.foldl_cons, List.foldl_nil]
    by_cases hn : pos ≥ n
    · rw [if_pos hn, Memory.read_write, ih]
      by_cases hi : i = pos - n
      · have h1 : i ≤ pos ∧ pos - i < n + 1 := by omega
        have h2 : pos - i = n := by omega
        rw [if_pos hi, if_pos h1, h2]
      · rw [if_neg hi]
        have : (i ≤ pos ∧ pos - i < n) ↔ (i ≤ pos ∧ pos - i < n + 1) := by omega
        simp only [this]
    · rw [if_neg hn, ih]
      have : (i ≤ pos ∧ pos - i < n) ↔ (i ≤ pos ∧ pos - i < n + 1) := by omega
      simp only [this]

/-! ## The decay engine -/

/-- How many draws a firing pixel makes. -/
def Pick.perFire : Pick → Nat
  | .anyHue => 3
  | .phaseHue _ => 2
  | .nearPhase _ _ => 3

/-- The colour a firing pixel takes from its third draw. -/
def Pick.hue : Pick → Nat → Pixel
  | .anyHue, v => pal (v % 256)
  | .phaseHue phase, _ => pal phase
  | .nearPhase phase spread, v => pal (phase + v % spread)

theorem pickColor_afterDraws (k : Pick) (p : Port Nat) (j : Nat) :
    pickColor k (afterDraws p (j + 2)) = (k.hue (drawnNumber p (j + 2)), afterDraws p (j + k.perFire)) := by
  cases k <;> simp [pickColor, Pick.hue, Pick.perFire, drawBelow_afterDraws]

/-- One pixel's turn touches no other pixel. -/
theorem decayPixel_other (a : DecayArgs) (w : DecayWork) {i j : Nat} (h : j ≠ i) :
    (decayPixel a w i).file.life.read 0#8 j = w.file.life.read 0#8 j ∧
    (decayPixel a w i).file.col.read black j = w.file.col.read black j ∧
    (decayPixel a w i).buf.read black j = w.buf.read black j := by
  unfold decayPixel decayLit decayFire
  simp only
  split <;> [skip; split] <;> simp [Memory.read_write_other _ _ _ h]

theorem byte_sub_one_toNat {x : Byte} (h : x ≠ 0) : (x - 1).toNat + 1 = x.toNat := by
  have h1 : x.toNat ≠ 0 := fun c => h (BitVec.eq_of_toNat_eq c)
  have h2 := x.isLt
  rw [BitVec.toNat_sub]
  simp
  omega

/-- One pixel's turn, where the port stands after `k` draws of the tick (41 R160). -/
theorem decayPixel_spec (a : DecayArgs) (w : DecayWork) (hmax : a.lmax ≤ 255) (hmin : a.lmin ≤ a.lmax)
    (p : Port Nat) (k i : Nat) (hp : w.random = afterDraws p k) :
    DecayedPixel w.file (decayPixel a w i).file ((decayPixel a w i).buf.read black i) (drawnNumber p) k
      a.den a.lmin a.lmax a.pick.hue (shade a) i ∧
    (decayPixel a w i).random = afterDraws p (
      if w.file.life.read 0#8 i ≠ 0#8 then k
      else if drawnNumber p k % a.den = 0 then k + a.pick.perFire else k + 1) := by
  unfold DecayedPixel
  by_cases hl : w.file.life.read 0#8 i ≠ 0#8
  · have hr : decayPixel a w i = decayLit a w i := by unfold decayPixel; rw [if_pos hl]
    rw [hr]
    simp only [decayLit, Memory.read_write_self, if_pos hl]
    exact ⟨⟨byte_sub_one_toNat hl, trivial, trivial⟩, hp⟩
  · by_cases hd : drawnNumber p k % a.den = 0
    · have hr : decayPixel a w i = decayFire a { w with random := afterDraws p (k + 1) } i := by
        unfold decayPixel
        rw [if_neg hl]
        simp only [hp, drawBelow_afterDraws, hd, if_true]
      have hb : a.lmin + drawnNumber p (k + 1) % (a.lmax - a.lmin + 1) < 256 := by
        have := Nat.mod_lt (drawnNumber p (k + 1)) (show 0 < a.lmax - a.lmin + 1 by omega)
        omega
      rw [hr]
      simp only [decayFire, drawBelow_afterDraws, pickColor_afterDraws, Memory.read_write_self, if_neg hl,
        if_pos hd, channel, BitVec.toNat_ofNat]
      exact ⟨⟨Nat.mod_eq_of_lt hb, trivial, trivial⟩, trivial⟩
    · have hr : decayPixel a w i =
          { w with buf := w.buf.write black i black, random := afterDraws p (k + 1) } := by
        unfold decayPixel
        rw [if_neg hl]
        simp only [hp, drawBelow_afterDraws, hd, if_false]
      rw [hr]
      simp only [Memory.read_write_self, if_neg hl, if_neg hd]
      exact ⟨⟨by simpa using hl, trivial, trivial⟩, trivial⟩

/-- The decay engine over the first `n` pixels, pixel by pixel (41 R160): every pixel below `n` as
`DecayedPixel` says, no other touched, and the port after exactly the draws made. -/
theorem decayTick_spec (a : DecayArgs) (w : DecayWork) (hmax : a.lmax ≤ 255) (hmin : a.lmin ≤ a.lmax)
    (n : Nat) :
    let ans := drawnNumber w.random
    let before := decayDraws (fun i => w.file.life.read 0#8 i) ans a.den a.pick.perFire
    let r := decayTick a n w
    (∀ i, i < n → DecayedPixel w.file r.file (r.buf.read black i) ans (before i) a.den a.lmin a.lmax
      a.pick.hue (shade a) i) ∧
    (∀ i, n ≤ i → r.file.life.read 0#8 i = w.file.life.read 0#8 i ∧
      r.file.col.read black i = w.file.col.read black i ∧ r.buf.read black i = w.buf.read black i) ∧
    r.random = afterDraws w.random (before n) := by
  intro ans before
  induction n with
  | zero => exact ⟨by simp, by simp [decayTick], by simp [decayTick, before, decayDraws, afterDraws_zero]⟩
  | succ n ih =>
    obtain ⟨hin, hout, hport⟩ := ih
    have hstep : decayTick a (n + 1) w = decayPixel a (decayTick a n w) n := by
      simp [decayTick, List.range_succ]
    obtain ⟨hlife, hcol, hbuf⟩ := hout n (Nat.le_refl n)
    obtain ⟨hpix, hrand⟩ := decayPixel_spec a (decayTick a n w) hmax hmin w.random (before n) n hport
    simp only [hstep]
    refine ⟨fun i hi => ?_, fun i hi => ?_, ?_⟩
    · by_cases he : i = n
      · subst he
        simpa only [DecayedPixel, hlife, hcol, hbuf] using hpix
      · obtain ⟨h1, h2, h3⟩ := decayPixel_other a (decayTick a n w) he
        have := hin i (by omega)
        simpa only [DecayedPixel, h1, h2, h3] using this
    · obtain ⟨h1, h2, h3⟩ := decayPixel_other a (decayTick a n w) (show i ≠ n by omega)
      obtain ⟨g1, g2, g3⟩ := hout i (by omega)
      exact ⟨h1.trans g1, h2.trans g2, h3.trans g3⟩
    · rw [hrand, hlife]
      rfl

/-! ## Fire's cooling -/

/-- Cooling takes each pixel's own draw from its heat and makes one draw per pixel (41 R166). -/
theorem coolAll_spec (coolMax n : Nat) (w : HeatWork) :
    (∀ i, (coolAll coolMax n w).heat.read 0#8 i = if i < n
      then channel ((w.heat.read 0#8 i).toNat - drawnNumber w.random i % (coolMax + 1))
      else w.heat.read 0#8 i) ∧
    (coolAll coolMax n w).random = afterDraws w.random n := by
  induction n with
  | zero => simp [coolAll, afterDraws_zero]
  | succ n ih =>
    obtain ⟨hread, hport⟩ := ih
    have hstep : coolAll coolMax (n + 1) w = coolPixel coolMax (coolAll coolMax n w) n := by
      simp [coolAll, List.range_succ]
    rw [hstep]
    unfold coolPixel
    simp only [hport, drawBelow_afterDraws]
    refine ⟨fun i => ?_, trivial⟩
    rw [Memory.read_write]
    by_cases hi : i = n
    · subst hi
      simp [hread]
    · rw [if_neg hi, hread]
      have : i < n ↔ i < n + 1 := by omega
      simp only [this]

end Sys2Proof.Machine
end

