-- ==== Sys2Proof/Laws/Forms.lean ====
section
/-!
SUPPORT. That the loops of the stateful routines keep every memory canonical and within the strip (20_memory
R65, R66).
-/

namespace Sys2Proof.Machine

/-- A memory in canonical form whose listed indices are below `n`. -/
def Memory.Ok {α : Type} [DecidableEq α] (z : α) (n : Nat) (m : Memory α) : Prop :=
  m.wf z = true ∧ m.below n = true

theorem State.byteMemoryOk_iff (s : State) (m : Memory Byte) :
    s.byteMemoryOk m = true ↔ m.Ok 0#8 s.numPixels := by simp [State.byteMemoryOk, Memory.Ok]

theorem State.pixelMemoryOk_iff (s : State) (m : Memory Pixel) :
    s.pixelMemoryOk m = true ↔ m.Ok black s.numPixels := by simp [State.pixelMemoryOk, Memory.Ok]

theorem State.fileOk_iff (s : State) (f : DecayFile) :
    s.fileOk f = true ↔ f.life.Ok 0#8 s.numPixels ∧ f.col.Ok black s.numPixels := by
  simp [State.fileOk, State.byteMemoryOk_iff, State.pixelMemoryOk_iff]

theorem Memory.ok_write {α : Type} [DecidableEq α] {z : α} {n : Nat} {m : Memory α} (h : m.Ok z n)
    {a : Nat} (ha : a < n) (v : α) : (m.write z a v).Ok z n :=
  ⟨Memory.wf_write h.1 a v, Memory.below_write h.2 ha v⟩

theorem Memory.ok_updateAll {α : Type} [DecidableEq α] {z : α} {n : Nat} {m : Memory α} (h : m.Ok z n)
    (f : Nat → α → α) : (m.updateAll z n f).Ok z n :=
  ⟨Memory.wf_updateAll h.1 n f, Memory.below_updateAll h.2 (Nat.le_refl n) f⟩

/-- A loop over the strip keeps what each of its turns keeps. -/
theorem foldl_range_keeps {β : Type} (P : β → Prop) (f : β → Nat → β) (n : Nat)
    (hf : ∀ w i, i < n → P w → P (f w i)) (w : β) (h : P w) : P ((List.range n).foldl f w) := by
  have key : ∀ (l : List Nat) (w : β), (∀ i ∈ l, i < n) → P w → P (l.foldl f w) := by
    intro l
    induction l with
    | nil => exact fun _ _ hw => hw
    | cons i l ih =>
      exact fun w hl hw => ih _ (fun j hj => hl j (by simp [hj])) (hf w i (hl i (by simp)) hw)
  exact key _ w (by simp) h

/-- The trail is painted within the strip. -/
theorem paintTrail_ok {n : Nat} {m : Memory Pixel} (h : m.Ok black n) (trail : Nat) {pos : Nat}
    (hp : pos < n) (c : Pixel) : (paintTrail trail pos c m).Ok black n := by
  unfold paintTrail
  refine foldl_range_keeps (fun m : Memory Pixel => m.Ok black n) _ trail (fun m k _ hm => ?_) m h
  split
  · exact Memory.ok_write hm (by omega) _
  · exact hm

/-- The file and the buffer of a decay tick are in form. -/
def DecayWork.Ok (n : Nat) (w : DecayWork) : Prop :=
  w.file.life.Ok 0#8 n ∧ w.file.col.Ok black n ∧ w.buf.Ok black n

theorem decayTick_ok (a : DecayArgs) {n : Nat} {w : DecayWork} (h : w.Ok n) : (decayTick a n w).Ok n := by
  refine foldl_range_keeps (DecayWork.Ok n) _ n (fun w i hi hw => ?_) w h
  obtain ⟨h1, h2, h3⟩ := hw
  unfold decayPixel decayLit decayFire
  dsimp only
  split
  · exact ⟨Memory.ok_write h1 hi _, h2, Memory.ok_write h3 hi _⟩
  · split
    · exact ⟨Memory.ok_write h1 hi _, Memory.ok_write h2 hi _, Memory.ok_write h3 hi _⟩
    · exact ⟨h1, h2, Memory.ok_write (m := w.buf) h3 hi black⟩

theorem coolAll_ok (coolMax : Nat) {n : Nat} {w : HeatWork} (h : w.heat.Ok 0#8 n) :
    (coolAll coolMax n w).heat.Ok 0#8 n :=
  foldl_range_keeps (fun w : HeatWork => w.heat.Ok 0#8 n) _ n (fun _ _ hi hw => Memory.ok_write hw hi _) w h

theorem reheat_ok (heatMin heatMax : Nat) {n : Nat} (hn : 0 < n) {w : HeatWork} (h : w.heat.Ok 0#8 n) :
    (reheat heatMin heatMax n w).heat.Ok 0#8 n :=
  Memory.ok_write h (drawBelow_lt hn w.random) _

theorem fireHeat_ok {s : State} (hn : 0 < s.numPixels) (h : s.heat.Ok 0#8 s.numPixels) :
    (fireHeat s).heat.Ok 0#8 s.numPixels :=
  reheat_ok _ _ hn (coolAll_ok _ h)

end Sys2Proof.Machine
end

