-- ==== Sys2Proof/Laws/PerInstr.lean ====
section
/-!
SUPPORT. One statement about every instruction as it is written: its encoding lies in its row of the opcode
table (30_encoding R92, R94, R97).
-/

namespace Sys2Proof.Laws.EncodesInRow

/-- The encoding has the row's format, and its bits under the row's mask are the row's pattern. -/
def Statement (i : Instr) : Prop := (opcodeRow i).holds (encode i) = true

/-- What a row asks of an encoding. -/
theorem of_parts {row : OpcodeRow} {e : Encoding} (hf : e.format = row.format)
    (hb : e.bits &&& row.mask = row.pattern) : row.holds e = true := by
  simp [OpcodeRow.holds, hf, hb]

/-- The bits of a command word under a mask, field by field. -/
theorem masked (op mop : BitVec 8) (imm mimm : BitVec 24) :
    (op ++ imm).toNat &&& (mop ++ mimm).toNat = ((op &&& mop) ++ (imm &&& mimm)).toNat := by
  rw [← BitVec.toNat_and, BitVec.and_append]

/-- A command word whose operand is all of `imm` is in the row that masks `op` alone. -/
theorem inRow (op : BitVec 8) (imm : BitVec 24) :
    (op ++ imm).toNat &&& 0xFF000000 = (op ++ (0 : BitVec 24)).toNat := by
  have h := masked op 0xFF imm 0
  have h1 : op &&& 0xFF#8 = op := BitVec.and_allOnes
  have h2 : imm &&& 0#24 = 0 := BitVec.and_zero
  rw [show (0xFF : BitVec 8) = 0xFF#8 from rfl, show (0 : BitVec 24) = 0#24 from rfl, h1, h2] at h
  exact h

theorem setMode (n : BitVec 8) : Statement (.setMode n) := by
  have h : ((0x01#8 ++ n.setWidth 24 : BitVec 32)).toNat &&& 0xFFFFFF00 = 0x01000000 := by
    have hz : n.setWidth 24 = (0 : BitVec 16) ++ n := by
      apply BitVec.eq_of_toNat_eq
      have := n.isLt
      rw [toNat_concat, BitVec.toNat_setWidth]
      simp
      omega
    have h := masked 0x01 0xFF (n.setWidth 24) 0xFFFF00
    rw [hz] at h ⊢
    have h2 : ((0 : BitVec 16) ++ n) &&& (0xFFFF00 : BitVec 24) = 0 := by
      have : (0xFFFF00 : BitVec 24) = (0xFFFF : BitVec 16) ++ (0 : BitVec 8) := by decide
      rw [this, BitVec.and_append]
      simp
    rw [h2] at h
    exact h
  exact of_parts rfl h

theorem setSpeed (step : Int) : Statement (.setSpeed step) := by
  have h := inRow 0x02 (BitVec.ofInt 24 step)
  exact of_parts rfl h

theorem setFillRate (hz : Int) : Statement (.setFillRate hz) := by
  have h := inRow 0x03 (BitVec.ofInt 24 hz)
  exact of_parts rfl h

theorem setWriteRate (hz : Int) : Statement (.setWriteRate hz) := by
  have h := inRow 0x04 (BitVec.ofInt 24 hz)
  exact of_parts rfl h

theorem setColor (c : Pixel) : Statement (.setColor c) := by
  have h := inRow 0x07 (Machine.packPixel c)
  exact of_parts rfl h

theorem start : Statement .start := by unfold Statement; decide
theorem stop : Statement .stop := by unfold Statement; decide
theorem clrColor : Statement .clrColor := by unfold Statement; decide
theorem modeRainbow : Statement .modeRainbow := by unfold Statement; decide
theorem modeSolid : Statement .modeSolid := by unfold Statement; decide
theorem modePrimaryCycle : Statement .modePrimaryCycle := by unfold Statement; decide
theorem modeRandomFlash : Statement .modeRandomFlash := by unfold Statement; decide
theorem modeChase : Statement .modeChase := by unfold Statement; decide
theorem modeBreathing : Statement .modeBreathing := by unfold Statement; decide
theorem modeColorWipe : Statement .modeColorWipe := by unfold Statement; decide
theorem modeGradient : Statement .modeGradient := by unfold Statement; decide
theorem modeTheaterChase : Statement .modeTheaterChase := by unfold Statement; decide
theorem modeTwinkle : Statement .modeTwinkle := by unfold Statement; decide
theorem modeSparkle : Statement .modeSparkle := by unfold Statement; decide
theorem modeMeteor : Statement .modeMeteor := by unfold Statement; decide
theorem modeStrobe : Statement .modeStrobe := by unfold Statement; decide
theorem modeScanner : Statement .modeScanner := by unfold Statement; decide
theorem modeConfetti : Statement .modeConfetti := by unfold Statement; decide
theorem modeFire : Statement .modeFire := by unfold Statement; decide
theorem modePulse : Statement .modePulse := by unfold Statement; decide
theorem stageIdle : Statement .stageIdle := by unfold Statement; decide
theorem stageFill : Statement .stageFill := by unfold Statement; decide
theorem stageWrite : Statement .stageWrite := by unfold Statement; decide
theorem stageYield : Statement .stageYield := by unfold Statement; decide

end Sys2Proof.Laws.EncodesInRow
end

