-- ==== Sys2Proof/Laws/Step.lean ====
section
/-!
SUPPORT. What the scheduler's operations and the choice of the next move can do, said once.
-/

namespace Sys2Proof.Machine

/-! ## The scheduler's operations -/

/-- A routine's instruction is what the fill tick runs (42_mode_registry R193). -/
theorem runRoutine_eq (m : ModeId) (s : State) : runRoutine m s = exec (instrOfMode m) s := by
  cases m <;> rfl

/-- Scanner's move writes its two registers and nothing else (41_modes_stateful R153). -/
theorem scanMove_eq (s : State) : ∃ d p, scanMove s = { s with scDir := d, scPos := p } := by
  unfold scanMove
  split
  · exact ⟨_, _, rfl⟩
  · exact ⟨s.scDir, s.scPos, rfl⟩

/-- A fill tick that answers is its routine's answer, finished (43_scheduler R207). -/
theorem fillTick_next {s t : State} (h : fillTick s = .next t) :
    ∃ u, exec (instrOfMode (routineOf s.mode)) s = .next u ∧ t = finishFill u := by
  obtain ⟨u, hu, ht⟩ := thenNext_next h
  exact ⟨u, (runRoutine_eq _ s).symm.trans hu, ht⟩

/-- What stage FILL answers after its clock sample (43_scheduler R202). -/
theorem fillGate_next {s t : State} (h : fillGate s = .next t) :
    (s.run = false ∧ t = { s with stage := .idle }) ∨
    (s.run = true ∧ fillDue s = false ∧ t = { s with stage := .write }) ∨
    (s.run = true ∧ fillDue s = true ∧ ∃ u, fillTick s = .next u ∧ t = { u with stage := .write }) := by
  unfold fillGate at h
  cases hr : s.run
  · rw [hr] at h
    injection h with h
    exact .inl ⟨rfl, h.symm⟩
  · rw [hr, if_pos rfl] at h
    cases hd : fillDue s
    · rw [hd] at h
      injection h with h
      exact .inr (.inl ⟨rfl, rfl, h.symm⟩)
    · rw [hd, if_pos rfl] at h
      exact .inr (.inr ⟨rfl, rfl, thenNext_next h⟩)

/-- A write tick with a status: the frame, the log of a failure, `PENDING` clear, `LAST_WRITE` set
(43_scheduler R208). -/
theorem writeTick_eq (s : State) : writeTick s = { s with
    frames := s.frames ++ [frameOf s], writer := s.writer.advance, pending := false, lastWrite := s.now,
    log := if writeAnswer s = .fail then s.log ++ [⟨0x02, 0⟩] else s.log } := by
  have hw : writeAnswer { s with pending := true } = writeAnswer s := rfl
  unfold writeTick
  simp only [hw]
  cases writeAnswer s <;> rfl

/-! ## The next move -/

/-- Choosing consumes a turn answer and changes nothing else. -/
theorem afterTurn_eq (s : State) : ∃ p, afterTurn s = { s with turns := p } := by
  unfold afterTurn
  split
  · exact ⟨_, rfl⟩
  · exact ⟨s.turns, rfl⟩

theorem afterTurn_contended {s : State} (h : contended s = true) :
    afterTurn s = { s with turns := s.turns.advance } := if_pos h

theorem afterTurn_quiet {s : State} (h : contended s = false) : afterTurn s = s := by
  unfold afterTurn
  rw [h]
  rfl

theorem turnOf_quiet {s : State} (h : contended s = false) : turnOf s = .scheduler := by
  unfold turnOf
  rw [h]
  rfl

/-- While `CFG_ERR = 1` only a reset moves (60_exceptions R261). -/
theorem nextMove_configError {s : State} (h : s.cfgErr = true) :
    (s.resets = [] ∧ nextMove s = .held) ∨
    ∃ c rest, s.resets = c :: rest ∧ nextMove s = .reset c { s with resets := rest } := by
  unfold nextMove
  rw [h]
  cases hr : s.resets with
  | nil => exact .inl ⟨rfl, rfl⟩
  | cons c rest => exact .inr ⟨c, rest, rfl, rfl⟩

/-- With `CFG_ERR = 0` the move follows the turn: a waiting reset, a waiting command word, else the
scheduler (60_exceptions R275). -/
theorem nextMove_configured {s : State} (h : s.cfgErr = false) :
    (∃ c rest, turnOf s = .reset ∧ s.resets = c :: rest ∧
      nextMove s = .reset c { afterTurn s with resets := rest }) ∨
    (∃ w rest, turnOf s = .host ∧ s.commands = w :: rest ∧
      nextMove s = .command w { afterTurn s with commands := rest }) ∨
    ((turnOf s = .reset → s.resets = []) ∧ (turnOf s = .host → s.commands = []) ∧
      nextMove s = .stage (afterTurn s)) := by
  unfold nextMove
  rw [h]
  cases ht : turnOf s with
  | scheduler => exact .inr (.inr ⟨by simp, by simp, rfl⟩)
  | host =>
    cases hc : s.commands with
    | nil => exact .inr (.inr ⟨by simp, by simp, rfl⟩)
    | cons w rest => exact .inr (.inl ⟨w, rest, rfl, rfl, rfl⟩)
  | reset =>
    cases hr : s.resets with
    | nil => exact .inr (.inr ⟨by simp, by simp, rfl⟩)
    | cons c rest => exact .inl ⟨c, rest, rfl, rfl, rfl⟩

/-- A reset that answers had legal parameters and answers a construction (70_reset_and_hazards R290). -/
theorem performReset_next {c : Construction} {s t : State} (h : performReset c s = .next t) :
    constructionLegal c = true ∧ t = { State.construct s.tuning c with
      clock := s.clock, random := s.random, writer := s.writer, turns := s.turns,
      commands := s.commands, resets := s.resets, frames := s.frames, log := s.log } := by
  unfold performReset at h
  split at h
  · next hl =>
    injection h with h
    exact ⟨hl, h.symm⟩
  · cases h

/-- A command word that answers decoded (30_encoding R93). -/
theorem runCommand_next {w : BitVec 32} {s t : State} (h : runCommand w s = .next t) :
    ∃ i, decodeCommand w = .ok i ∧ exec i s = .next t := by
  unfold runCommand at h
  split at h
  · next i hi => exact ⟨i, hi, h⟩
  · cases h

/-- The whole inversion of a step: a reset, a command or a scheduler step. -/
theorem step_next {s t : State} (h : step s = .next t) :
    (∃ c rest u, s.resets = c :: rest ∧ (s.cfgErr = true ∨ turnOf s = .reset) ∧
      u.tuning = s.tuning ∧ performReset c u = .next t) ∨
    (∃ w rest i p, s.cfgErr = false ∧ turnOf s = .host ∧ s.commands = w :: rest ∧
      decodeCommand w = .ok i ∧ exec i { s with turns := p, commands := rest } = .next t) ∨
    (∃ p, s.cfgErr = false ∧
      exec (decodeStage (stageCodeOf s.stage)) { s with turns := p } = .next t) := by
  unfold step at h
  obtain ⟨p, hp⟩ := afterTurn_eq s
  by_cases hc : s.cfgErr = true
  · obtain ⟨-, hm⟩ | ⟨c, rest, hr, hm⟩ := nextMove_configError hc
    · rw [hm] at h
      cases h
    · rw [hm] at h
      exact .inl ⟨c, rest, { s with resets := rest }, hr, .inl hc, rfl, h⟩
  · rw [Bool.not_eq_true] at hc
    obtain ⟨c, rest, ht, hr, hm⟩ | ⟨w, rest, ht, hw, hm⟩ | ⟨-, -, hm⟩ := nextMove_configured hc
    · rw [hm, hp] at h
      exact .inl ⟨c, rest, { s with turns := p, resets := rest }, hr, .inr ht, rfl, h⟩
    · rw [hm, hp] at h
      obtain ⟨i, hi, he⟩ := runCommand_next h
      exact .inr (.inl ⟨w, rest, i, p, hc, ht, hw, hi, he⟩)
    · rw [hm, hp] at h
      exact .inr (.inr ⟨p, hc, h⟩)

/-- A run begins with a step. -/
theorem run_of_step {n : Nat} {s t v : State} (hs : step s = .next t)
    (hr : Host.Core.run Sys2Proof.core n t = .next v) :
    Host.Core.run Sys2Proof.core (n + 1) s = .next v := by
  have key : ∀ (M : Host.Core) (s t v : M.State), M.step s = .next t → M.run n t = .next v →
      M.run (n + 1) s = .next v := fun M s t v h1 h2 => by simp only [Host.Core.run, h1, h2]
  exact key Sys2Proof.core s t v hs hr

end Sys2Proof.Machine
end

