-- ==== Sys2Proof/Tests/Slice0.lean ====
section
/-!
SUPPORT. Tests of single operations and steps, with expected values from the spec's encodings, worked examples
and 95_test_vectors.md, and for each statement with hypotheses a witness that meets them (witness_<statement>).
-/

namespace Sys2Proof.Tests

open Sys2Proof.Machine

/-! ## States -/

/-- A strip of `n` pixels after reset with the reference tuning, at a phase. -/
def strip (n phase : Nat) : State :=
  { State.construct Config.tuning { Config.construction with numLeds := BitVec.ofNat 16 n } with
    phase := BitVec.ofNat 8 phase }

/-- That strip with draw answers laid out. -/
def drawing (n phase : Nat) (draws : List Nat) : State := { strip n phase with random := ⟨draws, 0⟩ }

/-- A running loop of four pixels in stage FILL, both gates at 2 ms since 1000, the next clock answer given. -/
def looping (clock : BitVec 32) : State :=
  { strip 4 10 with
    run := true, stage := .fill, fillInterval := 2, writeInterval := 2, lastFill := 1000, lastWrite := 1000,
    clock := ⟨[clock], 0⟩, writer := ⟨[.fail], 0⟩ }

/-- The host is about to issue a word. -/
def issuing (w : BitVec 32) (s : State) : State := { s with commands := [w], turns := ⟨[.host], 0⟩ }

/-- A part of the next state, if there is one. -/
def part {α : Type} (f : State → α) : Result → Option α
  | .next s => some (f s)
  | .fault _ => none
  | .refused _ => none

/-- The refusal, if it is one. -/
def refusal : Result → Option Refusal
  | .next _ => none
  | .fault _ => none
  | .refused e => some e

/-- The fault, if it is one. -/
def stopFault : Result → Option Fault
  | .next _ => none
  | .fault e => some e
  | .refused _ => none

/-- The strip as pixel words. -/
def shown (s : State) : List Nat := (s.buf.snapshot black s.numPixels).map (fun c => (packPixel c).toNat)

/-- The strip after an instruction. -/
def picture (i : Instr) (s : State) : Option (List Nat) := part shown (exec i s)

/-! ## Encodings -/

/-- Format C words written out from 30_encoding R90 to R92: the op byte, then `imm`. -/
theorem test_command_words :
    decode (.command 0b00000001000000000000000000001101) = .ok (.setMode 0b1101) ∧
    decode (.command 0b00000010111111111111111111111111) = .ok (.setSpeed (-1)) ∧
    decode (.command 0b00000011000000000000000111110100) = .ok (.setFillRate 500) ∧
    decode (.command 0b00000100000000000000000011111010) = .ok (.setWriteRate 250) ∧
    decode (.command 0b00000101000000000000000000000000) = .ok .start ∧
    decode (.command 0b00000110000000000000000000000000) = .ok .stop ∧
    decode (.command 0b00000111111111110000000010000000) = .ok (.setColor ⟨255, 0, 128⟩) ∧
    decode (.command 0b00001000000000000000000000000000) = .ok .clrColor := by decide

/-- Format M words written out from 30_encoding R94, 0x00 to 0x08. -/
theorem test_mode_words_low :
    decode (.modeNumber 0b00000000) = .ok .modeRainbow ∧
    decode (.modeNumber 0b00000001) = .ok .modeSolid ∧
    decode (.modeNumber 0b00000010) = .ok .modePrimaryCycle ∧
    decode (.modeNumber 0b00000011) = .ok .modeRandomFlash ∧
    decode (.modeNumber 0b00000100) = .ok .modeChase ∧
    decode (.modeNumber 0b00000101) = .ok .modeBreathing ∧
    decode (.modeNumber 0b00000110) = .ok .modeColorWipe ∧
    decode (.modeNumber 0b00000111) = .ok .modeGradient ∧
    decode (.modeNumber 0b00001000) = .ok .modeTheaterChase := by decide

/-- Format M words written out from 30_encoding R94, 0x09 to 0x10, and the first unknown number (R95). -/
theorem test_mode_words_high :
    decode (.modeNumber 0b00001001) = .ok .modeTwinkle ∧
    decode (.modeNumber 0b00001010) = .ok .modeSparkle ∧
    decode (.modeNumber 0b00001011) = .ok .modeMeteor ∧
    decode (.modeNumber 0b00001100) = .ok .modeStrobe ∧
    decode (.modeNumber 0b00001101) = .ok .modeScanner ∧
    decode (.modeNumber 0b00001110) = .ok .modeConfetti ∧
    decode (.modeNumber 0b00001111) = .ok .modeFire ∧
    decode (.modeNumber 0b00010000) = .ok .modePulse ∧
    decode (.modeNumber 0b00010001) = .error (.unknownMode 0x11) := by decide

/-- Format S words written out from 30_encoding R97. -/
theorem test_stage_words :
    decode (.stageCode 0b00) = .ok .stageIdle ∧ decode (.stageCode 0b01) = .ok .stageFill ∧
    decode (.stageCode 0b10) = .ok .stageWrite ∧ decode (.stageCode 0b11) = .ok .stageYield := by
  decide

/-- WellFormed refuses a term that no encoding holds: one for each check. -/
theorem test_ill_formed_refused :
    Instr.wellFormed (.setSpeed 8388608) = false ∧ Instr.wellFormed (.setFillRate (-8388609)) = false ∧
    Instr.wellFormed (.setWriteRate 8388608) = false := by decide

/-- The extreme operands of 30_encoding R91 are well formed. -/
theorem witness_DecodeOfEncodeIsTheInstruction :
    Instr.wellFormed (.setSpeed (-8388608)) = true ∧ Instr.wellFormed (.setSpeed 8388607) = true ∧
    Instr.wellFormed (.setFillRate (-8388608)) = true ∧ Instr.wellFormed (.setWriteRate 8388607) = true ∧
    Instr.wellFormed .stageIdle = true := by decide

theorem witness_DecodedCommandEncodesBack :
    decodeCommand 0x02800000 = .ok (.setSpeed (-8388608)) ∧ encode (.setSpeed (-8388608)) = .command 0x02800000 := by
  decide

/-- The reserved words of 93_implementation_defined U1. -/
theorem witness_EachCommandRowDecodesItsWords :
    decodeCommand 0x00000000 = .error (.reservedCommand 0x00000000) ∧
    decodeCommand 0x09000000 = .error (.reservedCommand 0x09000000) ∧
    decodeCommand 0xFFFFFFFF = .error (.reservedCommand 0xFFFFFFFF) ∧
    decodeCommand 0x01000100 = .error (.reservedCommand 0x01000100) ∧
    decodeCommand 0x05000001 = .error (.reservedCommand 0x05000001) ∧
    decodeCommand 0x06800000 = .error (.reservedCommand 0x06800000) ∧
    decodeCommand 0x08000001 = .error (.reservedCommand 0x08000001) := by decide

/-- The host's view of the decoder: a format by width (log 13). -/
theorem test_table_words :
    decodeTableWord 32 0x05000000 = some .start ∧ decodeTableWord 8 0x10 = some .modePulse ∧
    decodeTableWord 2 0x3 = some .stageYield ∧ decodeTableWord 8 0x11 = none ∧
    decodeTableWord 32 0x05000001 = none ∧ decodeTableWord 16 0 = none := by decide

/-- Assembler errors and comments (30_encoding R100). -/
theorem test_assembler :
    assemble "set_mode 256" = .error .outOfRange ∧ assemble "nop" = .error .unknownOperation ∧
    assemble "start 1" = .error .badOperand ∧ assemble "stop # now" = .ok (some (.command 0x06000000)) ∧
    assemble "# nothing" = .ok none ∧ assemble "set_mode 0x10" = .ok (some (.command 0x01000010)) := by
  decide

/-! ## Colours -/

/-- 95_test_vectors V1, at the bands' edges. -/
theorem witness_WheelFollowsTheThreeBands :
    wheel (-1) = black ∧ wheel 0 = ⟨0, 255, 0⟩ ∧ wheel 84 = ⟨252, 3, 0⟩ ∧ wheel 85 = ⟨255, 0, 0⟩ ∧
    wheel 169 = ⟨3, 0, 252⟩ ∧ wheel 170 = ⟨0, 0, 255⟩ ∧ wheel 255 = ⟨0, 255, 0⟩ ∧ wheel 256 = black := by
  decide

/-- Entries of the ROM table of 20_memory R62, and the wrap of R63. -/
theorem witness_PaletteLookupWrapsAndIsNeverBlack :
    (packPixel (pal 3)).toNat = 0x09F600 ∧ (packPixel (pal 100)).toNat = 0xD2002D ∧
    (packPixel (pal 113)).toNat = 0xAB0054 ∧ pal 255 = ⟨0, 255, 0⟩ ∧ pal 256 = pal 0 ∧ pal 261 = pal 5 := by
  decide

/-- 95_test_vectors V2. -/
theorem witness_ScaleAndDimFloorEveryChannel :
    scale ⟨255, 128, 1⟩ 255 = ⟨255, 128, 1⟩ ∧ scale ⟨255, 128, 1⟩ 0 = black ∧
    scale ⟨255, 128, 1⟩ 128 = ⟨128, 64, 0⟩ ∧ scale ⟨3, 3, 3⟩ 84 = black ∧ scale ⟨3, 3, 3⟩ 85 = ⟨1, 1, 1⟩ ∧
    dim 192 ⟨255, 128, 64⟩ = ⟨191, 96, 48⟩ := by decide

/-- 95_test_vectors V6, at the bands' edges. -/
theorem witness_HeatColorFollowsTheThreeBands :
    heatColor 0 = black ∧ heatColor 84 = ⟨252, 0, 0⟩ ∧ heatColor 85 = ⟨255, 0, 0⟩ ∧
    heatColor 169 = ⟨255, 252, 0⟩ ∧ heatColor 170 = ⟨255, 255, 0⟩ ∧ heatColor 255 = ⟨255, 255, 255⟩ := by
  decide

/-! ## Commands -/

/-- 95_test_vectors V7. -/
theorem witness_SetModeStoresTheResolvedNumber :
    (strip 4 10).cfgErr = false ∧ part (·.mode) (exec (.setMode 0x10) (strip 4 10)) = some 0x10 ∧
    part (·.mode) (exec (.setMode 0x11) { strip 4 10 with mode := 3 }) = some 0x00 := by decide

theorem witness_UnknownNameSelectsRainbow : 0x10 < (0x11#8).toNat ∧ 0x10 < (0xFF#8).toNat := by decide

/-- 95_test_vectors V9. -/
theorem witness_SetSpeedStoresTheStepModulo256 :
    (strip 4 10).cfgErr = false ∧ part (·.speed) (exec (.setSpeed (-1)) (strip 4 10)) = some 255 ∧
    part (·.speed) (exec (.setSpeed 256) (strip 4 10)) = some 0 := by decide

/-- Worked examples of 44_control_commands R234, R235. -/
theorem witness_SetRatesStoreTheInterval :
    (strip 4 10).cfgErr = false ∧ part (·.fillInterval) (exec (.setFillRate 500) (strip 4 10)) = some 2 ∧
    part (·.fillInterval) (exec (.setFillRate 0) (strip 4 10)) = some 1 ∧
    part (·.writeInterval) (exec (.setWriteRate 250) (strip 4 10)) = some 4 := by decide

/-- 95_test_vectors V9, both roundings of the four exact halves and their neighbours. -/
theorem witness_RateToIntervalRoundsToNearest :
    [(-5 : Int), 0, 1, 3, 16, 80, 400, 666, 667, 2000, 8388607].map (rateToInterval .even) =
      [1, 1, 1000, 333, 62, 12, 2, 2, 1, 1, 1] ∧
    [(16 : Int), 80, 400, 2000, 2001].map (rateToInterval .up) = [63, 13, 3, 1, 1] := by decide

/-- Worked example of 44_control_commands R236: the clock at 70000; and `START` while running. -/
theorem witness_StartLatchesBothTimestamps :
    (strip 4 10).run = false ∧ (strip 4 10).cfgErr = false ∧ (looping 5).run = true ∧
    part (fun t => (t.run, t.lastFill, t.lastWrite, t.clock.count))
      (exec .start { strip 4 10 with clock := ⟨[70000], 0⟩ }) = some (true, 70000, 70000, 1) ∧
    part (fun t => (t.lastFill, t.clock.count)) (exec .start (looping 5)) = some (1000, 0) := by
  decide

theorem witness_StopClearsRun :
    (looping 5).cfgErr = false ∧ part (fun t => (t.run, t.stage)) (exec .stop (looping 5)) = some (false, .fill) := by
  decide

/-- Worked examples of 44_control_commands R238, R239. -/
theorem witness_ColorCommandsWriteSolidColor :
    (strip 4 10).cfgErr = false ∧
    part (fun t => (t.solidValid, t.solidPixel)) (exec (.setColor ⟨255, 0, 128⟩) (strip 4 10)) =
      some (true, ⟨255, 0, 128⟩) ∧
    part (fun t => (t.solidValid, t.solidPixel))
      (exec .clrColor { strip 4 10 with solidValid := true, solidPixel := ⟨255, 0, 128⟩ }) =
      some (false, ⟨255, 0, 128⟩) := by decide

theorem witness_CommandsLeaveLoopAndPrivateStateAlone :
    (encode .start).format = .C ∧ (encode (.setSpeed 3)).format = .C ∧
    (part (·.phase) (exec .start { strip 4 10 with clock := ⟨[9], 0⟩ })).isSome ∧
    (part (·.phase) (exec (.setSpeed 3) (strip 4 10))).isSome := by decide

/-! ## Routines without private state -/

/-- Worked example of 40_modes_stateless R121. -/
theorem witness_RainbowPaintsTheScrollingGradient :
    (strip 4 10).cfgErr = false ∧
    picture .modeRainbow (strip 4 10) = some [0x1EE100, 0xDB2400, 0x63009C, 0x005DA2] := by decide

/-- Worked examples of 40_modes_stateless R122. -/
theorem witness_SolidPaintsOneColor :
    (strip 2 85).solidValid = false ∧ picture .modeSolid (strip 2 85) = some [0xFF0000, 0xFF0000] ∧
    picture .modeSolid { strip 2 85 with solidValid := true, solidPixel := ⟨255, 0, 128⟩ } =
      some [0xFF0080, 0xFF0080] := by decide

/-- 95_test_vectors V3, both edges of each band. -/
theorem witness_PrimaryCyclePaintsTheBandColor :
    [0, 84, 85, 169, 170, 255].map (fun p => picture .modePrimaryCycle (strip 1 p)) =
      [some [0xFF0000], some [0xFF0000], some [0x00FF00], some [0x00FF00], some [0x0000FF], some [0x0000FF]] := by
  decide

/-- 95_test_vectors V3: one draw for the whole strip. -/
theorem witness_RandomFlashPaintsOneDraw :
    picture .modeRandomFlash (drawing 2 0 [0x123456, 7]) = some [0x123456, 0x123456] ∧
    part (·.random) (exec .modeRandomFlash (drawing 2 0 [0x123456, 7])) = some ⟨[7], 1⟩ := by decide

/-- 95_test_vectors V3, both sides of the peak. -/
theorem witness_BreathingScalesByTheTriangle :
    [0, 64, 127, 128, 129, 200, 255].map (fun p => picture .modeBreathing (strip 1 p)) =
      [some [0x000000], some [0x601F00], some [0x80007D], some [0x7E0081], some [0x7A0083], some [0x002748],
        some [0x000200]] := by decide

/-- Worked examples of 40_modes_stateless R126: the boundary's step. -/
theorem witness_ColorWipeLightsUpToTheBoundary :
    picture .modeColorWipe (strip 4 63) = some [0xBD4200, 0, 0, 0] ∧
    picture .modeColorWipe (strip 4 64) = some [0xC03F00, 0xC03F00, 0, 0] := by decide

/-- 95_test_vectors V3. -/
theorem witness_GradientSpansItsSteps :
    tuningLegal (strip 4 200).tuning = true ∧
    picture .modeGradient (strip 4 200) = some [0x005AA5, 0x009966, 0x00D827, 0x15EA00] := by decide

/-- 95_test_vectors V3. -/
theorem witness_TheaterChaseLightsEveryThirdPixel :
    picture .modeTheaterChase (strip 6 1) = some [0, 0, 0x03FC00, 0, 0, 0x03FC00] := by decide

/-- 95_test_vectors V3: the last lit phase and the first dark one, and the next period. -/
theorem witness_StrobeLightsThePeriodsStart :
    [0, 3, 4, 7, 8].map (fun p => picture .modeStrobe (strip 1 p)) =
      [some [0x00FF00], some [0x09F600], some [0], some [0], some [0x18E700]] := by decide

/-- 95_test_vectors V3: a period's end and the jump back. -/
theorem witness_PulseScalesByTheSawtooth :
    [0, 1, 63, 64, 200].map (fun p => picture .modePulse (strip 1 p)) =
      [some [0x00FF00], some [0x02F900], some [0x020100], some [0xC03F00], some [0x004F90]] := by decide

/-- Illegal tuning is refused (93_implementation_defined U12). -/
theorem test_illegal_tuning_refused :
    refusal (exec .modePulse { strip 1 0 with tuning := { Config.tuning with pulsePeriod := 0 } }) =
      some .illegalTuning := by decide

/-! ## Routines with private state -/

/-- Worked example of 41_modes_stateful R150: the wrap; and a position out of range. -/
theorem witness_ChasePaintsThenAdvances :
    picture .modeChase { strip 8 0 with chasePos := 7 } = some [0, 0, 0, 0, 0, 0, 0, 0x00FF00] ∧
    part (·.chasePos) (exec .modeChase { strip 8 0 with chasePos := 7 }) = some 0 ∧
    part (·.log) (exec .modeChase { strip 8 0 with chasePos := 8, mode := 4 }) = some [⟨1, 4⟩] := by
  decide

/-- The position and direction after a Scanner tick. -/
def scanned (n pos : Nat) (d : Dir) : Option (BitVec 16 × Dir) :=
  part (fun t => (t.scPos, t.scDir)) (exec .modeScanner { strip n 0 with scPos := BitVec.ofNat 16 pos, scDir := d })

/-- 95_test_vectors V4: both ends, both directions, and one pixel. -/
theorem witness_ScannerPaintsThenBounces :
    scanned 4 2 .up = some (3, .up) ∧ scanned 4 3 .up = some (2, .down) ∧ scanned 4 1 .down = some (0, .down) ∧
    scanned 4 0 .down = some (1, .up) ∧ scanned 2 1 .up = some (0, .down) ∧ scanned 1 0 .up = some (0, .up) ∧
    scanned 4 4 .up = some (4, .up) := by decide

/-- Worked example of 41_modes_stateful R156, and the wrapped head of 95_test_vectors V4, tick 7. -/
theorem witness_MeteorDimsThenPaintsTheTrail :
    picture .modeMeteor { strip 6 85 with mtPos := 2 } = some [0x800000, 0xC00000, 0xFF0000, 0, 0, 0] ∧
    picture .modeMeteor { strip 3 170 with buf := [(0, ⟨0, 255, 0⟩), (1, ⟨255, 0, 0⟩), (2, ⟨0, 0, 255⟩)] } =
      some [0x0000FF, 0xBF0000, 0x0000BF] ∧
    part (·.mtPos) (exec .modeMeteor { strip 6 85 with mtPos := 5 }) = some 0 ∧
    part (·.log) (exec .modeMeteor { strip 6 85 with mtPos := 6, mode := 11 }) = some [⟨1, 11⟩] := by
  decide

/-- Worked example of 41_modes_stateful R161: draws 7 | 0, 0, 85 | 49. -/
theorem witness_TwinkleDecaysAndFires :
    let s := { drawing 3 0 [7, 0, 0, 85, 49] with tuning := { Config.tuning with twLifeMin := 2, twLifeMax := 3 } }
    tuningLegal s.tuning = true ∧ picture .modeTwinkle s = some [0, 0xFF0000, 0] ∧
    part (fun t => (t.tw.life, t.random.count)) (exec .modeTwinkle s) = some ([(1, 2)], 5) := by decide

/-- 95_test_vectors V5: a firing pixel makes two draws, a lit one none. -/
theorem witness_SparkleDecaysAndFires :
    picture .modeSparkle (drawing 2 10 [0, 0, 19]) = some [0x1EE100, 0] ∧
    part (fun t => (t.sp.life, t.random.count))
      (exec .modeSparkle { drawing 2 10 [3] with sp := ⟨[(0, 1)], [(0, ⟨30, 225, 0⟩)]⟩ }) = some ([], 1) := by
  decide

/-- 95_test_vectors V5: the faded colour on firing and while lit. -/
theorem witness_ConfettiDecaysAndFires :
    picture .modeConfetti (drawing 2 10 [0, 3, 20, 1]) = some [0x3D7100, 0] ∧
    picture .modeConfetti { drawing 2 10 [5] with cf := ⟨[(0, 11)], [(0, ⟨90, 165, 0⟩)]⟩ } = some [0x386600, 0] := by
  decide

/-- Worked example of 41_modes_stateful R166: both saturations. -/
theorem witness_FireCoolsReheatsAndMaps :
    let s := { drawing 3 0 [5, 20, 20, 1, 40] with heat := [(1, 200), (2, 10)] }
    tuningLegal s.tuning = true ∧ 0 < s.numPixels ∧ picture .modeFire s = some [0, 0xFFFFFF, 0] ∧
    part (fun t => (t.heat, t.random.count)) (exec .modeFire s) = some ([(1, 255)], 5) := by decide

/-- Fire on a strip of no pixels with `CFG_ERR = 0` (log 17). -/
theorem test_fire_without_pixels :
    refusal (exec .modeFire { strip 0 0 with cfgErr := false }) = some .drawWithNoChoice := by decide

/-- 95_test_vectors P6: `CHASE_POS = 9` on four pixels. -/
theorem witness_ModeFaultLogsAndPaintsRainbow :
    let s := { strip 4 10 with chasePos := 9, scPos := 4, mtPos := 4, mode := 4 }
    s.cfgErr = false ∧ tuningLegal s.tuning = true ∧ modeFaults .chase s = true ∧
    modeFaults .scanner s = true ∧ modeFaults .meteor s = true ∧
    part logWords (exec .modeChase s) = some [0x0104] ∧
    picture .modeChase s = some [0x1EE100, 0xDB2400, 0x63009C, 0x005DA2] ∧
    part (·.log) (exec .modeScanner s) = some [⟨1, 4⟩] := by decide

/-- A position at the last pixel, which is no fault, and one past it, which is. -/
theorem witness_RoutinesWriteOnlyTheirOwn :
    modeFaults .chase { strip 4 10 with chasePos := 3 } = false ∧
    part (·.log) (exec (instrOfMode .chase) { strip 4 10 with chasePos := 3 }) = some [] ∧
    modeFaults .chase { strip 4 10 with chasePos := 4 } = true ∧
    part (·.log) (exec (instrOfMode .chase) { strip 4 10 with chasePos := 4 }) = some [⟨1, 0⟩] ∧
    (part (·.phase) (exec (instrOfMode .fire) (drawing 1 10 [0, 0, 0]))).isSome := by decide

/-- Two states that differ in what Chase may not read and agree on the rest. -/
theorem witness_RoutinesDoNotReadTheRest :
    let s := strip 4 10
    let s' := { s with run := true, pending := true, solidValid := true, scPos := 3, buf := [(0, ⟨1, 2, 3⟩)] }
    s'.cfgErr = false ∧ SameInputs .chase s s' ∧ (part (·.buf) (exec (instrOfMode .chase) s)).isSome :=
  ⟨by decide, ⟨rfl, rfl, rfl, rfl, rfl, by decide, by decide⟩, by decide⟩

/-! ## The scheduler -/

/-- 95_test_vectors V8, the wrap included. -/
theorem witness_DueComparesTheWrappedDifference :
    due 1001 1000 2 = false ∧ due 1002 1000 2 = true ∧ due 1 0xFFFFFFFE 3 = true ∧ due 1 0xFFFFFFFE 4 = false ∧
    elapsed 1 0xFFFFFFFE = 3 := by decide

theorem witness_IdleAndYieldMoveOnlyTheStage :
    (strip 4 10).cfgErr = false ∧ part (·.stage) (exec .stageIdle (strip 4 10)) = some .idle ∧
    part (·.stage) (exec .stageIdle { strip 4 10 with run := true }) = some .fill ∧
    part (·.stage) (exec .stageYield { strip 4 10 with stage := .yield }) = some .fill := by decide

/-- The gate one millisecond early, and a stopped loop. -/
theorem witness_FillStageWithoutTick :
    (looping 1001).cfgErr = false ∧
    due ((looping 1001).clock.answer Config.freeClock) (looping 1001).lastFill (looping 1001).fillInterval = false ∧
    part (fun t => (t.stage, t.now, t.lastFill)) (exec .stageFill (looping 1001)) = some (.write, 1001, 1000) ∧
    part (fun t => (t.stage, t.now)) (exec .stageFill { looping 1002 with run := false }) = some (.idle, 1002) := by
  decide

/-- The running loop's state meets the invariants of 10_state R43. -/
theorem looping_inv : (looping 1002).Inv := by constructor <;> decide

/-- Worked example of 43_scheduler R202: the gate exactly due. -/
theorem witness_FillTickRunsTheSelectedRoutine :
    (looping 1002).cfgErr = false ∧ tuningLegal (looping 1002).tuning = true ∧ 0 < (looping 1002).numPixels ∧
    (looping 1002).run = true ∧
    due ((looping 1002).clock.answer Config.freeClock) (looping 1002).lastFill (looping 1002).fillInterval = true ∧
    part (fun t => (t.phase, t.lastFill, t.stage)) (exec .stageFill (looping 1002)) = some (11, 1002, .write) ∧
    part shown (exec .stageFill { looping 1002 with mode := 0x11 }) =
      some [0x1EE100, 0xDB2400, 0x63009C, 0x005DA2] := by decide

/-- A write tick with a failing status, and a write gate not due (43_scheduler R204, R208). -/
theorem witness_WriteStageHandsOverTheSnapshot :
    due (1002#32) (looping 0).lastWrite (looping 0).writeInterval = true ∧
    part (fun t => (t.frames.length, t.log, t.lastWrite, t.stage))
      (exec .stageWrite { looping 0 with now := 1002 }) = some (1, [⟨2, 0⟩], 1002, .yield) ∧
    part (fun t => (t.frames.length, t.lastWrite)) (exec .stageWrite { looping 0 with now := 1001 }) =
      some (0, 1000) := by decide

/-- Both outcomes of each gate: the interval is 2 ms since 1000. -/
theorem witness_GatesShareOnlyTheClockSample :
    (part (·.lastWrite) (exec .stageFill (looping 1001))).isSome ∧
    (part (·.lastFill) (exec .stageWrite { looping 0 with now := 1002 })).isSome ∧
    (part (·.lastWrite) (exec .stageFill (looping 1002))).isSome ∧
    (part (·.lastFill) (exec .stageWrite (looping 1002))).isSome := by decide

theorem witness_IterationRunsEachGateAtMostOnce :
    (looping 1002).cfgErr = false ∧ tuningLegal (looping 1002).tuning = true ∧ 0 < (looping 1002).numPixels ∧
    (looping 1002).run = true ∧ (looping 1002).stage = .fill ∧ (looping 1002).commands = [] ∧ (looping 1002).resets = [] ∧
    due ((looping 1002).clock.answer Config.freeClock) (looping 1002).lastWrite (looping 1002).writeInterval = true ∧
    due ((looping 1001).clock.answer Config.freeClock) (looping 1001).lastFill (looping 1001).fillInterval = false := by
  decide

theorem witness_StopEndsWithinTheIteration :
    let s := { looping 1002 with run := false }
    s.cfgErr = false ∧ s.commands = [] ∧ s.resets = [] ∧ s.stage = .fill ∧
    part quiescent (step s) = some true ∧ part (·.stage) (step { s with stage := .yield }) = some .fill ∧
    part (·.stage) (step { s with stage := .write }) = some .yield := by decide

theorem witness_PhaseAdvancesByTheSpeed :
    (looping 1002).cfgErr = false ∧ tuningLegal (looping 1002).tuning = true ∧ 0 < (looping 1002).numPixels ∧
    part (·.phase) (fillTicks 4 { looping 1002 with speed := 64 }) = some 10 := by decide

theorem witness_ChaseVisitsEveryPixelOnce :
    let s := { strip 4 10 with mode := 0x04, chasePos := 3 }
    s.cfgErr = false ∧ s.mode = 0x04 ∧ s.chasePos.toNat < s.numPixels ∧
    part shown (fillTicks 2 s) = some [0x21DE00, 0, 0, 0] := by decide

/-! ## The whole machine -/

/-- A quiet step, a contended scheduler turn, a command and a reserved word. -/
theorem witness_StepRunsTheDecodedInstruction :
    (strip 4 10).commands = [] ∧ (strip 4 10).resets = [] ∧
    turnOf { strip 4 10 with commands := [0], turns := ⟨[.scheduler], 0⟩ } = .scheduler ∧
    turnOf (issuing 0x02000007 (strip 4 10)) = .host ∧ decode (.command 0x02000007) = .ok (.setSpeed 7) ∧
    part (fun t => (t.speed, t.commands)) (step (issuing 0x02000007 (strip 4 10))) = some (7, []) ∧
    refusal (step (issuing 0x01000100 (strip 4 10))) = some (.reservedCommand 0x01000100) := by decide

/-- 60_exceptions R261: `START` is not accepted; a waiting reset is. -/
theorem witness_ConfigErrorStopsAllButReset :
    (strip 0 0).cfgErr = true ∧ stopFault (exec .start (strip 0 0)) = some .configError ∧
    stopFault (step (strip 0 0)) = some .configError ∧
    part (fun t => (t.cfgErr, t.numLeds)) (step { strip 0 0 with resets := [Config.construction] }) =
      some (false, 4) := by decide

theorem witness_ResetLeavesTheTablesValues :
    (State.construct Config.tuning { Config.construction with numLeds := 0 }).cfgErr = true ∧
    (State.construct Config.tuning { Config.construction with speed := -1 }).speed = 255 := by decide

theorem witness_ResetIsANewConstruction :
    let s := { looping 5 with resets := [Config.construction], turns := ⟨[.reset], 0⟩ }
    turnOf s = .reset ∧ Config.construction.brightness.toNat ≤ 100 ∧
    part (fun t => (t.run, t.stage, t.phase)) (step s) = some (false, .idle, 0) ∧
    refusal (step { s with resets := [{ Config.construction with brightness := 101 }] }) =
      some .illegalConstruction := by decide

theorem witness_ResetStatesAreGood :
    tuningLegal Config.tuning = true ∧ Config.construction.brightness.toNat ≤ 100 := by decide

/-- The memories are in canonical form at reset. -/
theorem test_reset_memories_wf :
    State.reset.buf.wf black = true ∧ State.reset.tw.life.wf 0#8 = true ∧ State.reset.heat.wf 0#8 = true := by
  decide

theorem witness_EveryStepKeepsTheInvariants :
    (looping 1002).Inv ∧ (part (·.phase) (step (looping 1002))).isSome := ⟨looping_inv, by decide⟩

theorem witness_RunNeverEndsByItself :
    (issuing 0x06000000 (looping 1002)).Live :=
  ⟨by decide, by decide, by decide, by decide, fun w h => ⟨.stop, by rw [List.mem_singleton.mp h]; decide⟩⟩

/-- 00_scope R15: `START` after reset. -/
theorem witness_QuiescenceEndsOnlyByStart :
    let s := issuing 0x05000000 { strip 4 10 with clock := ⟨[9], 0⟩ }
    quiescent s = true ∧ part quiescent (step s) = some false := by decide

/-- The rows of the table of 60_exceptions R269, at each edge. -/
theorem witness_LifecycleFollowsItsTable :
    let s := { strip 4 10 with clock := ⟨[9], 0⟩ }
    s.resets = [] ∧ lifecycle s = .stopped ∧ part lifecycle (step s) = some .stopped ∧
    part lifecycle (step (issuing 0x05000000 s)) = some .running ∧ lifecycle (looping 1001) = .running ∧
    part lifecycle (step (issuing 0x06000000 (looping 1001))) = some .stopping ∧
    part lifecycle (step (issuing 0x06000000 { s with run := true })) = some .stopped ∧
    lifecycle { looping 1001 with run := false } = .stopping ∧
    part lifecycle (step { looping 1001 with run := false }) = some .stopped ∧
    part lifecycle (step (issuing 0x05000000 { looping 1001 with run := false })) = some .running := by
  decide

theorem witness_PrivateStateIsWrittenByItsOwner :
    (part (·.phase) (exec .modeChase (strip 4 10))).isSome ∧ ¬ MayRun .modeChase (strip 4 10) .scanner ∧
    ¬ MayRun .stageFill (strip 4 10) .chase ∧ ¬ MayRun .modeRainbow (strip 4 10) .fire := by
  unfold MayRun
  decide

theorem witness_ParametersAreNeverWritten :
    (part (·.numLeds) (exec .stageFill (looping 1002))).isSome ∧
    (part (·.numLeds) (exec .stop (looping 1002))).isSome := by decide

/-- 10_state R41: `STATUS` of a running loop in stage WRITE, a number that is not listed, an element beyond the
strip. -/
theorem witness_StatusPortReadsTheRegisters :
    readRegister { looping 5 with stage := .write } 0x02 = 0x21 ∧ readRegister (looping 5) 0x0C = 0 ∧
    readRegister (looping 5) 0x0F = 0 ∧ readRegister (looping 5) 0x14 = 0 ∧
    readSpace (strip 4 0) .buf 3 = some 0 ∧ readSpace (strip 4 0) .buf 4 = none ∧
    readSpace (strip 4 0) .pal 255 = some 0x00FF00 ∧ readSpace (strip 4 0) .pal 341 = some 0xFF0000 := by decide

/-! ## Placing an instruction after reset -/

/-- A placed command word runs next. -/
theorem test_placed_command :
    part (·.speed) (step (State.reset.withFetchWord 32 0x020000F0)) = some 0xF0 := by decide

/-- A placed mode word runs in the next step's fill tick. -/
theorem test_placed_mode :
    part shown (step (State.reset.withFetchWord 8 0x02)) = some [0xFF0000, 0xFF0000, 0xFF0000, 0xFF0000] := by
  decide

/-- A placed stage code runs next. -/
theorem test_placed_stage : part (·.stage) (step (State.reset.withFetchWord 2 0x3)) = some .fill := by
  decide

end Sys2Proof.Tests
end

/-!
PROOF. `Scale` and Meteor's dim channel by channel (00_scope R9, 41_modes_stateful R156).
-/

namespace Sys2Proof.Machine

theorem channel_toNat {v : Nat} (h : v < 256) : (channel v).toNat = v := by
  simpa [channel] using h

/-- A function that keeps channel values below 256 is applied to each channel as it stands. -/
theorem mapChannels_toNat {f : Nat → Nat} (hf : ∀ ch, ch < 256 → f ch < 256) (c : Pixel) :
    (mapChannels f c).r.toNat = f c.r.toNat ∧ (mapChannels f c).g.toNat = f c.g.toNat ∧
    (mapChannels f c).b.toNat = f c.b.toNat :=
  ⟨channel_toNat (hf _ c.r.isLt), channel_toNat (hf _ c.g.isLt), channel_toNat (hf _ c.b.isLt)⟩

/-- A channel times a factor up to the divisor, divided by it, is again a channel value. -/
theorem mul_div_lt_byte {ch e k : Nat} (he : e ≤ k) (hch : ch < 256) : ch * e / k < 256 := by
  have h : ch * e / k ≤ ch :=
    Nat.div_le_of_le_mul (by rw [Nat.mul_comm k ch]; exact Nat.mul_le_mul_left ch he)
  omega

theorem scale_full (c : Pixel) : scale c 255 = c := by
  simp [scale, mapChannels, rgb, channel]

theorem scale_zero (c : Pixel) : scale c 0 = black := by
  simp [scale, mapChannels, rgb, channel, black]

/-- Settles O8: no channel's quotient exceeds the channel, so packing it loses nothing. -/
theorem scaleAndDimFloorEveryChannel : Obligations.ScaleAndDimFloorEveryChannel := by
  intro c e he
  obtain ⟨hsr, hsg, hsb⟩ :=
    mapChannels_toNat (f := fun ch => ch * e / 255) (fun _ => mul_div_lt_byte he) c
  obtain ⟨hdr, hdg, hdb⟩ :=
    mapChannels_toNat (f := fun ch => ch * e / 256) (fun _ => mul_div_lt_byte (by omega)) c
  exact ⟨hsr, hsg, hsb, hdr, hdg, hdb, scale_full c, scale_zero c⟩

end Sys2Proof.Machine

/-!
PROOF. What every instruction leaves unchanged, by the three kinds of instruction: routines, stages and commands
(10_state R31, R40, R42, 40_modes_stateless R120, 44_control_commands R230).
-/

namespace Sys2Proof.Machine

/-! ## The three kinds -/

/-- An instruction is a routine's, a stage's or a host command (30_encoding R92, R94, R97). -/
theorem instr_kind (i : Instr) :
    (∃ m, i = instrOfMode m) ∨ (∃ g, i = instrOfStage g) ∨ (opcodeRow i).format = .C := by
  cases i with
  | setMode | setSpeed | setFillRate | setWriteRate | start | stop | setColor | clrColor =>
    exact .inr (.inr rfl)
  | stageIdle => exact .inr (.inl ⟨.idle, rfl⟩)
  | stageFill => exact .inr (.inl ⟨.fill, rfl⟩)
  | stageWrite => exact .inr (.inl ⟨.write, rfl⟩)
  | stageYield => exact .inr (.inl ⟨.yield, rfl⟩)
  | modeRainbow => exact .inl ⟨.rainbow, rfl⟩
  | modeSolid => exact .inl ⟨.solid, rfl⟩
  | modePrimaryCycle => exact .inl ⟨.primaryCycle, rfl⟩
  | modeRandomFlash => exact .inl ⟨.randomFlash, rfl⟩
  | modeChase => exact .inl ⟨.chase, rfl⟩
  | modeBreathing => exact .inl ⟨.breathing, rfl⟩
  | modeColorWipe => exact .inl ⟨.colorWipe, rfl⟩
  | modeGradient => exact .inl ⟨.gradient, rfl⟩
  | modeTheaterChase => exact .inl ⟨.theaterChase, rfl⟩
  | modeTwinkle => exact .inl ⟨.twinkle, rfl⟩
  | modeSparkle => exact .inl ⟨.sparkle, rfl⟩
  | modeMeteor => exact .inl ⟨.meteor, rfl⟩
  | modeStrobe => exact .inl ⟨.strobe, rfl⟩
  | modeScanner => exact .inl ⟨.scanner, rfl⟩
  | modeConfetti => exact .inl ⟨.confetti, rfl⟩
  | modeFire => exact .inl ⟨.fire, rfl⟩
  | modePulse => exact .inl ⟨.pulse, rfl⟩

theorem bareCommand_ok {w : BitVec 32} {i j : Instr} (h : bareCommand w i = .ok j) : j = i := by
  unfold bareCommand at h
  split at h <;> cases h
  rfl

/-- A command port's word decodes to a host command (30_encoding R92). -/
theorem decodeCommand_format {w : BitVec 32} {i : Instr} (h : decodeCommand w = .ok i) :
    (opcodeRow i).format = .C := by
  unfold decodeCommand at h
  split at h
  case h_1 =>
    split at h <;> cases h
    rfl
  case h_2 | h_3 | h_4 | h_7 =>
    cases h
    rfl
  case h_5 | h_6 | h_8 =>
    rw [bareCommand_ok h]
    rfl
  case h_9 => cases h

/-! ## What each kind writes -/

/-- `t` differs from `s` at most in what a routine may write: `BUF`, its own registers and files, the random
port and the log (40_modes_stateless R120, 60_exceptions R263). -/
def RoutineWrites (s t : State) : Prop :=
  t = { s with
    buf := t.buf, chasePos := t.chasePos, scPos := t.scPos, scDir := t.scDir, mtPos := t.mtPos, tw := t.tw,
    sp := t.sp, cf := t.cf, heat := t.heat, random := t.random, log := t.log }

/-- `t` differs from `s` at most in what a host command may write: the settings, `RUN`, the two timestamps and
the clock port (44_control_commands R232 to R239). -/
def CommandWrites (s t : State) : Prop :=
  t = { s with
    mode := t.mode, speed := t.speed, fillInterval := t.fillInterval, writeInterval := t.writeInterval,
    solidValid := t.solidValid, solidPixel := t.solidPixel, run := t.run, lastFill := t.lastFill,
    lastWrite := t.lastWrite, clock := t.clock }

/-- `t` has the parameters of `s`, what waits at its ports and its answers to who moves: no instruction writes
these (10_state R31, R42, 00_scope R13). -/
structure ParametersKept (s t : State) : Prop where
  numLeds : t.numLeds = s.numLeds
  brightness : t.brightness = s.brightness
  cfgErr : t.cfgErr = s.cfgErr
  tuning : t.tuning = s.tuning
  turns : t.turns = s.turns
  commands : t.commands = s.commands
  resets : t.resets = s.resets

theorem RoutineWrites.parametersKept {s t : State} (h : RoutineWrites s t) : ParametersKept s t := by
  unfold RoutineWrites at h
  constructor <;> rw [h]

theorem CommandWrites.parametersKept {s t : State} (h : CommandWrites s t) : ParametersKept s t := by
  unfold CommandWrites at h
  constructor <;> rw [h]

/-- A position routine's fault recovery writes no more than a routine may (60_exceptions R263). -/
theorem RoutineWrites.withPosition {s r : State} (pos : BitVec 16) (h : RoutineWrites s r) :
    RoutineWrites s (withPosition s pos r) := by
  unfold Machine.withPosition
  split
  · rfl
  · exact h

/-- A routine that answers wrote only what a routine may. -/
theorem routine_writes {m : ModeId} {s t : State} (h : exec (instrOfMode m) s = .next t) :
    RoutineWrites s t := by
  cases m with
  | rainbow | solid | primaryCycle | randomFlash | breathing | colorWipe | theaterChase =>
    obtain ⟨-, h⟩ := whenConfigured_next h
    cases h
    rfl
  | gradient | strobe | pulse | twinkle | sparkle | confetti =>
    obtain ⟨-, h⟩ := whenConfigured_next h
    obtain ⟨-, h⟩ := whenTuned_next h
    cases h
    rfl
  | chase =>
    obtain ⟨-, h⟩ := whenConfigured_next h
    cases h
    exact RoutineWrites.withPosition _ rfl
  | scanner =>
    obtain ⟨-, h⟩ := whenConfigured_next h
    cases h
    obtain ⟨d, p, hmove⟩ := scanMove_eq (paintSpot s s.scPos.toNat)
    exact RoutineWrites.withPosition _ (by rw [hmove]; rfl)
  | meteor =>
    obtain ⟨-, h⟩ := whenConfigured_next h
    obtain ⟨-, h⟩ := whenTuned_next h
    cases h
    exact RoutineWrites.withPosition _ rfl
  | fire =>
    obtain ⟨-, h⟩ := whenConfigured_next h
    obtain ⟨-, h⟩ := whenTuned_next h
    split at h
    · cases h
    · cases h
      rfl

/-- A host command that answers wrote only what a command may. -/
theorem command_writes {i : Instr} (hi : (opcodeRow i).format = .C) {s t : State} (h : exec i s = .next t) :
    CommandWrites s t := by
  cases i with
  | setMode | setSpeed | setFillRate | setWriteRate | stop | setColor | clrColor =>
    obtain ⟨-, h⟩ := whenConfigured_next h
    cases h
    rfl
  | start =>
    obtain ⟨-, h⟩ := whenConfigured_next h
    cases h
    split <;> rfl
  | _ => cases hi

/-- A stage that answers keeps the parameters, also where it runs a fill tick or a write tick. -/
theorem stage_parametersKept {g : Stage} {s t : State} (h : exec (instrOfStage g) s = .next t) :
    ParametersKept s t := by
  cases g with
  | idle =>
    obtain ⟨-, h⟩ := whenConfigured_next h
    cases h
    split <;> constructor <;> rfl
  | fill =>
    obtain ⟨-, h⟩ := whenConfigured_next h
    obtain ⟨-, rfl⟩ | ⟨-, -, rfl⟩ | ⟨-, -, u, hu, rfl⟩ := fillGate_next h
    · constructor <;> rfl
    · constructor <;> rfl
    · obtain ⟨v, hv, rfl⟩ := fillTick_next hu
      have k := (routine_writes hv).parametersKept
      exact ⟨k.numLeds, k.brightness, k.cfgErr, k.tuning, k.turns, k.commands, k.resets⟩
  | write =>
    obtain ⟨-, h⟩ := whenConfigured_next h
    cases h
    rw [writeTick_eq]
    split <;> constructor <;> rfl
  | yield =>
    obtain ⟨-, h⟩ := whenConfigured_next h
    cases h
    constructor <;> rfl

/-- No instruction writes the parameters or what waits at the ports. -/
theorem exec_parametersKept {i : Instr} {s t : State} (h : exec i s = .next t) : ParametersKept s t := by
  obtain ⟨m, rfl⟩ | ⟨g, rfl⟩ | hi := instr_kind i
  · exact (routine_writes h).parametersKept
  · exact stage_parametersKept h
  · exact (command_writes hi h).parametersKept

end Sys2Proof.Machine

/-!
PROOF. What keeps a run going and what ends quiescence (00_scope R15, 60_exceptions R260, R275).
-/

namespace Sys2Proof.Machine

/-! ## Every instruction answers a next state -/

/-- A routine stops for the configuration error, illegal tuning and an empty strip alone; a mode fault is
recovered from (60_exceptions R263). -/
theorem routine_answers (m : ModeId) {s : State} (hc : s.cfgErr = false) (ht : tuningLegal s.tuning = true)
    (hp : 0 < s.numPixels) : ∃ t, exec (instrOfMode m) s = .next t := by
  cases m with
  | rainbow | solid | primaryCycle | randomFlash | chase | breathing | colorWipe | theaterChase | scanner =>
    exact ⟨_, whenConfigured_ok hc _⟩
  | gradient | twinkle | sparkle | meteor | strobe | confetti | pulse =>
    exact ⟨_, (whenConfigured_ok hc _).trans (whenTuned_ok ht _)⟩
  | fire =>
    exact ⟨_, (whenConfigured_ok hc _).trans ((whenTuned_ok ht _).trans (if_neg (by omega)))⟩

/-- A host command stops for the configuration error alone (44_control_commands R230). -/
theorem command_answers {i : Instr} (hi : (opcodeRow i).format = .C) {s : State} (hc : s.cfgErr = false) :
    ∃ t, exec i s = .next t := by
  cases i with
  | setMode | setSpeed | setFillRate | setWriteRate | start | stop | setColor | clrColor =>
    exact ⟨_, whenConfigured_ok hc _⟩
  | _ => cases hi

/-- The fill gate answers wherever the selected routine does. -/
theorem fillGate_answers {s u : State} (h : exec (instrOfMode (routineOf s.mode)) s = .next u) :
    ∃ t, fillGate s = .next t := by
  have htick : fillTick s = .next (finishFill u) := by
    rw [fillTick, runRoutine_eq, h, thenNext_of_next]
  unfold fillGate
  split
  · split
    · exact ⟨_, by rw [htick, thenNext_of_next]⟩
    · exact ⟨_, rfl⟩
  · exact ⟨_, rfl⟩

/-- A stage stops for the configuration error alone, stage FILL also where its routine does. -/
theorem stage_answers (g : Stage) {s : State} (hc : s.cfgErr = false) (ht : tuningLegal s.tuning = true)
    (hp : 0 < s.numPixels) : ∃ t, exec (instrOfStage g) s = .next t := by
  cases g with
  | idle | write | yield => exact ⟨_, whenConfigured_ok hc _⟩
  | fill =>
    obtain ⟨u, hu⟩ := routine_answers (routineOf (sampleNow s).mode) (s := sampleNow s) hc ht hp
    obtain ⟨t, hgate⟩ := fillGate_answers hu
    exact ⟨t, (whenConfigured_ok hc _).trans hgate⟩

theorem exec_answers (i : Instr) {s : State} (hc : s.cfgErr = false) (ht : tuningLegal s.tuning = true)
    (hp : 0 < s.numPixels) : ∃ t, exec i s = .next t := by
  obtain ⟨m, rfl⟩ | ⟨g, rfl⟩ | hi := instr_kind i
  · exact routine_answers m hc ht hp
  · exact stage_answers g hc ht hp
  · exact command_answers hi hc

/-! ## Live states -/

/-- Every instruction takes a live state to a live state. -/
theorem State.Live.exec_live {s : State} (h : s.Live) (i : Instr) : ∃ t, exec i s = .next t ∧ t.Live := by
  obtain ⟨t, ht⟩ := exec_answers i h.configured h.tuning h.pixel
  have k := exec_parametersKept ht
  refine ⟨t, ht, k.cfgErr.trans h.configured, ?_, ?_, k.resets.trans h.noReset, ?_⟩
  · rw [k.tuning]
    exact h.tuning
  · rw [State.numPixels, k.numLeds]
    exact h.pixel
  · rw [k.commands]
    exact h.commands

/-- Every step takes a live state to a live state: with no reset waiting the move is a command that decodes or a
scheduler step. -/
theorem State.Live.step_live {s : State} (h : s.Live) : ∃ t, step s = .next t ∧ t.Live := by
  obtain ⟨p, hturn⟩ := afterTurn_eq s
  unfold step
  obtain ⟨c, rest, -, hr, -⟩ | ⟨w, rest, -, hw, hmove⟩ | ⟨-, -, hmove⟩ := nextMove_configured h.configured
  · rw [h.noReset] at hr
    cases hr
  · obtain ⟨i, hi⟩ := h.commands w (by simp [hw])
    have hlive : State.Live { s with turns := p, commands := rest } :=
      { h with commands := fun v hv => h.commands v (by simp [hw, hv]) }
    obtain ⟨t, ht, htlive⟩ := hlive.exec_live i
    exact ⟨t, by simp only [hmove, hturn, runMove, runCommand, hi, ht], htlive⟩
  · have hlive : State.Live { s with turns := p } := { h with }
    rw [hmove, hturn]
    exact hlive.exec_live _

/-- Settles O55: being live is kept by every step, and a run is as many steps. -/
theorem runNeverEndsByItself : Obligations.RunNeverEndsByItself := by
  refine ⟨fun s h => h.step_live, fun n => ?_⟩
  induction n with
  | zero => exact fun s _ => ⟨s, rfl⟩
  | succ n ih =>
    intro s h
    obtain ⟨t, hstep, hlive⟩ := h.step_live
    obtain ⟨v, hrun⟩ := ih t hlive
    exact ⟨v, run_of_step hstep hrun⟩

/-! ## Quiescence -/

theorem quiescent_iff (s : State) :
    quiescent s = true ↔ s.cfgErr = true ∨ (s.stage = .idle ∧ s.run = false) := by
  simp [quiescent]

/-- Only `START` among the commands sets `RUN` (44_control_commands R236). -/
theorem command_sets_run {i : Instr} (hi : (opcodeRow i).format = .C) {s t : State} (h : exec i s = .next t)
    (hs : s.run = false) (ht : t.run = true) : i = .start := by
  cases i with
  | start => rfl
  | setMode | setSpeed | setFillRate | setWriteRate | stop | setColor | clrColor =>
    obtain ⟨-, h⟩ := whenConfigured_next h
    cases h
    simp [hs] at ht
  | _ => cases hi

/-- Stage IDLE with `RUN = 0` is held (43_scheduler R201). -/
theorem stageIdle_held {s t : State} (hs : s.run = false) (h : exec .stageIdle s = .next t) : t = s := by
  obtain ⟨-, h⟩ := whenConfigured_next h
  rw [hs] at h
  cases h
  rfl

/-- Settles O56: a reset constructs a quiescent state, a held loop stays where it is, and of the commands only
`START` sets `RUN`. -/
theorem quiescenceEndsOnlyByStart : Obligations.QuiescenceEndsOnlyByStart := by
  intro s t hq h hnq
  obtain ⟨c, rest, u, -, -, -, hreset⟩ | ⟨w, rest, i, p, hc, hturn, hw, hi, hexec⟩ | ⟨p, hc, hexec⟩ :=
    step_next h
  · obtain ⟨-, rfl⟩ := performReset_next hreset
    simp [quiescent, State.construct] at hnq
  · obtain ⟨hidle, hrun⟩ : s.stage = .idle ∧ s.run = false := by simpa [quiescent_iff, hc] using hq
    have hformat := decodeCommand_format hi
    have hwrites := command_writes hformat hexec
    have hstage : t.stage = .idle := (congrArg State.stage hwrites :).trans hidle
    obtain ⟨-, hset⟩ : t.cfgErr = false ∧ t.run = true := by simpa [quiescent, hstage] using hnq
    exact ⟨hturn, w, rest, hw, command_sets_run hformat hexec hrun hset ▸ hi⟩
  · obtain ⟨hidle, hrun⟩ : s.stage = .idle ∧ s.run = false := by simpa [quiescent_iff, hc] using hq
    have hinstr : decodeStage (stageCodeOf s.stage) = .stageIdle := by rw [hidle]; rfl
    rw [hinstr] at hexec
    obtain rfl := stageIdle_held (s := { s with turns := p }) hrun hexec
    simp [quiescent, hidle, hrun] at hnq

end Sys2Proof.Machine

/-!
PROOF. The values that reset leaves, and that a reset state meets the invariants (10_state R43, R44).
-/

namespace Sys2Proof.Machine

/-- Settles O51: the table's values are the construction's own, `SPEED` and the intervals by the arithmetic of
44_control_commands R231 and R232. -/
theorem resetLeavesTheTablesValues : Obligations.ResetLeavesTheTablesValues := by
  intro t c
  have hspeed : ((BitVec.ofInt 8 c.speed).toNat : Int) = c.speed % 256 := by
    rw [BitVec.toNat_ofInt]
    omega
  exact ⟨rfl, rfl, decide_eq_true_iff, intervalOf_toNat _ _, intervalOf_toNat _ _, hspeed,
    rfl, rfl, rfl, rfl, rfl, rfl, rfl, rfl, rfl, rfl, rfl, rfl, rfl, rfl,
    fun _ => ⟨rfl, rfl, rfl, rfl, rfl, rfl, rfl, rfl⟩⟩

/-- An interval register written from a rate meets its bounds (44_control_commands R231). -/
theorem intervalOf_bounds (tie : RateTie) (hz : Int) :
    1 ≤ (intervalOf tie hz).toNat ∧ (intervalOf tie hz).toNat ≤ 1000 := by
  rw [intervalOf_toNat]
  exact rateToInterval_bounds tie hz

/-- Without the configuration error the strip has a pixel, so position 0 lies on it (10_state R31). -/
theorem State.numPixels_pos {s : State} (h : s.cfgErr = decide (s.numLeds = 0)) (hc : s.cfgErr = false) :
    0 < s.numPixels := by
  have hne : s.numLeds ≠ 0 := of_decide_eq_false (h.symm.trans hc)
  exact Nat.pos_of_ne_zero fun h0 => hne (BitVec.eq_of_toNat_eq h0)

/-- A construction with legal parameters meets the invariants (10_state R43, R44). -/
theorem construct_inv {t : Tuning} {c : Construction} (ht : tuningLegal t = true)
    (hc : c.brightness.toNat ≤ 100) : (State.construct t c).Inv where
  configured := rfl
  brightness := hc
  tuning := ht
  fillInterval := intervalOf_bounds _ _
  writeInterval := intervalOf_bounds _ _
  mode := Nat.zero_le _
  chasePos := State.numPixels_pos rfl
  scPos := State.numPixels_pos rfl
  mtPos := State.numPixels_pos rfl
  pending := rfl
  buf := rfl
  tw := rfl
  sp := rfl
  cf := rfl
  heat := rfl

/-- Settles O53: both parameters of `State.reset` are legal. -/
theorem resetStatesAreGood : Obligations.ResetStatesAreGood :=
  ⟨construct_inv (by decide) (by decide), fun _ _ ht hc => construct_inv ht hc⟩

end Sys2Proof.Machine

/-!
PROOF. The invariants of 10_state R43 are kept by every routine, stage, command and reset.
-/

namespace Sys2Proof.Machine

/-! ## Painting and positions -/

theorem State.Inv.pixel {s : State} (h : s.Inv) (hc : s.cfgErr = false) : 0 < s.numPixels :=
  State.numPixels_pos h.configured hc

theorem State.Inv.paintStrip {s : State} (h : s.Inv) (f : Nat → Pixel) : (paintStrip s f).Inv :=
  { h with
    buf := (s.pixelMemoryOk_iff _).2
      (Memory.ok_updateAll ((s.pixelMemoryOk_iff _).1 h.buf) (fun i _ => f i)) }

theorem nextPosition_lt {s : State} (pos : BitVec 16) (h : 0 < s.numPixels) :
    (nextPosition s pos).toNat < s.numPixels := by
  rw [nextPosition_toNat s pos h]
  exact Nat.mod_lt _ h

/-- Scanner turns back at the ends, so its move stays on the strip (41_modes_stateful R153). -/
theorem scanMove_scPos_lt {s : State} (h : s.scPos.toNat < s.numPixels) :
    (scanMove s).scPos.toNat < s.numPixels := by
  have hn : s.numPixels < 2 ^ 16 := s.numLeds.isLt
  unfold scanMove
  split
  · cases hd : s.scDir with
    | up | down =>
      simp only [scanDirection, hd]
      split_ifs <;> bv_omega
  · exact h

theorem State.Inv.scanMove {s : State} (h : s.Inv) (hc : s.cfgErr = false) : (scanMove s).Inv := by
  have hlt := scanMove_scPos_lt (h.scPos hc)
  obtain ⟨d, p, hmove⟩ := scanMove_eq s
  rw [hmove] at hlt ⊢
  exact { h with scPos := fun _ => hlt }

/-! ## The loops of the stateful routines -/

theorem meteorBuffer_ok {s : State} (h : s.Inv) (hc : s.cfgErr = false) :
    s.pixelMemoryOk (meteorBuffer s) = true := by
  rw [State.pixelMemoryOk_iff]
  exact paintTrail_ok (Memory.ok_updateAll ((s.pixelMemoryOk_iff _).1 h.buf) _) _ (h.mtPos hc) _

/-- A decay tick over a good state keeps its file and the buffer in form. -/
theorem State.Inv.decayTick {s : State} (h : s.Inv) (a : DecayArgs) {f : DecayFile}
    (hf : s.fileOk f = true) :
    s.fileOk (decayTick a s.numPixels ⟨f, s.buf, s.random⟩).file = true ∧
    s.pixelMemoryOk (decayTick a s.numPixels ⟨f, s.buf, s.random⟩).buf = true := by
  obtain ⟨hlife, hcol⟩ := (s.fileOk_iff f).1 hf
  have hwork : DecayWork.Ok s.numPixels ⟨f, s.buf, s.random⟩ :=
    ⟨hlife, hcol, (s.pixelMemoryOk_iff _).1 h.buf⟩
  obtain ⟨hlife', hcol', hbuf'⟩ := decayTick_ok a hwork
  exact ⟨(s.fileOk_iff _).2 ⟨hlife', hcol'⟩, (s.pixelMemoryOk_iff _).2 hbuf'⟩

/-! ## The three kinds of instruction -/

/-- A routine keeps the invariants. In a good state no position is off the strip, so none takes a mode fault. -/
theorem State.Inv.routine {m : ModeId} {s t : State} (hs : s.Inv) (h : exec (instrOfMode m) s = .next t) :
    t.Inv := by
  cases m with
  | rainbow | solid | primaryCycle | breathing | colorWipe | theaterChase =>
    obtain ⟨-, h⟩ := whenConfigured_next h
    cases h
    exact hs.paintStrip _
  | gradient | strobe | pulse =>
    obtain ⟨-, h⟩ := whenConfigured_next h
    obtain ⟨-, h⟩ := whenTuned_next h
    cases h
    exact hs.paintStrip _
  | randomFlash =>
    obtain ⟨-, h⟩ := whenConfigured_next h
    cases h
    have hdrawn : State.Inv { s with random := s.random.advance } := { hs with }
    exact hdrawn.paintStrip _
  | chase =>
    obtain ⟨hc, h⟩ := whenConfigured_next h
    rw [withPosition_ok (hs.chasePos hc)] at h
    cases h
    exact { hs.paintStrip _ with chasePos := fun _ => nextPosition_lt s.chasePos (hs.pixel hc) }
  | scanner =>
    obtain ⟨hc, h⟩ := whenConfigured_next h
    rw [withPosition_ok (hs.scPos hc)] at h
    cases h
    exact (hs.paintStrip _).scanMove hc
  | meteor =>
    obtain ⟨hc, h⟩ := whenConfigured_next h
    obtain ⟨-, h⟩ := whenTuned_next h
    rw [withPosition_ok (hs.mtPos hc)] at h
    cases h
    exact { hs with
      buf := meteorBuffer_ok hs hc, mtPos := fun _ => nextPosition_lt s.mtPos (hs.pixel hc) }
  | twinkle =>
    obtain ⟨-, h⟩ := whenConfigured_next h
    obtain ⟨-, h⟩ := whenTuned_next h
    cases h
    obtain ⟨hfile, hbuf⟩ := hs.decayTick (twinkleArgs s) hs.tw
    exact { hs with tw := hfile, buf := hbuf }
  | sparkle =>
    obtain ⟨-, h⟩ := whenConfigured_next h
    obtain ⟨-, h⟩ := whenTuned_next h
    cases h
    obtain ⟨hfile, hbuf⟩ := hs.decayTick (sparkleArgs s) hs.sp
    exact { hs with sp := hfile, buf := hbuf }
  | confetti =>
    obtain ⟨-, h⟩ := whenConfigured_next h
    obtain ⟨-, h⟩ := whenTuned_next h
    cases h
    obtain ⟨hfile, hbuf⟩ := hs.decayTick (confettiArgs s) hs.cf
    exact { hs with cf := hfile, buf := hbuf }
  | fire =>
    obtain ⟨hc, h⟩ := whenConfigured_next h
    obtain ⟨-, h⟩ := whenTuned_next h
    rw [if_neg (hs.pixel hc).ne'] at h
    cases h
    have hheat := fireHeat_ok (hs.pixel hc) ((s.byteMemoryOk_iff _).1 hs.heat)
    have hburning : State.Inv { s with heat := (fireHeat s).heat, random := (fireHeat s).random } :=
      { hs with heat := (s.byteMemoryOk_iff _).2 hheat }
    exact hburning.paintStrip _

/-- A host command keeps the invariants: rates become intervals in `1..1000` and mode numbers are resolved. -/
theorem State.Inv.command {i : Instr} (hi : (opcodeRow i).format = .C) {s t : State} (hs : s.Inv)
    (h : exec i s = .next t) : t.Inv := by
  cases i with
  | setMode n =>
    obtain ⟨-, h⟩ := whenConfigured_next h
    cases h
    exact { hs with mode := resolve_le n }
  | setFillRate hz =>
    obtain ⟨-, h⟩ := whenConfigured_next h
    cases h
    exact { hs with fillInterval := intervalOf_bounds _ hz }
  | setWriteRate hz =>
    obtain ⟨-, h⟩ := whenConfigured_next h
    cases h
    exact { hs with writeInterval := intervalOf_bounds _ hz }
  | setSpeed | stop | setColor | clrColor =>
    obtain ⟨-, h⟩ := whenConfigured_next h
    cases h
    exact { hs with }
  | start =>
    obtain ⟨-, h⟩ := whenConfigured_next h
    cases h
    split
    · exact hs
    · exact { hs with }
  | _ => cases hi

/-- A stage keeps the invariants, stage FILL because its routine does. -/
theorem State.Inv.stage {g : Stage} {s t : State} (hs : s.Inv) (h : exec (instrOfStage g) s = .next t) :
    t.Inv := by
  cases g with
  | idle =>
    obtain ⟨-, h⟩ := whenConfigured_next h
    cases h
    split
    · exact { hs with }
    · exact hs
  | fill =>
    obtain ⟨-, h⟩ := whenConfigured_next h
    have hsampled : (sampleNow s).Inv := { hs with }
    obtain ⟨-, rfl⟩ | ⟨-, -, rfl⟩ | ⟨-, -, u, hu, rfl⟩ := fillGate_next h
    · exact { hsampled with }
    · exact { hsampled with }
    · obtain ⟨v, hv, rfl⟩ := fillTick_next hu
      exact { hsampled.routine hv with }
  | write =>
    obtain ⟨-, h⟩ := whenConfigured_next h
    cases h
    rw [writeTick_eq]
    split
    · exact { hs with pending := rfl }
    · exact { hs with }
  | yield =>
    obtain ⟨-, h⟩ := whenConfigured_next h
    cases h
    exact { hs with }

theorem State.Inv.exec {i : Instr} {s t : State} (hs : s.Inv) (h : exec i s = .next t) : t.Inv := by
  obtain ⟨m, rfl⟩ | ⟨g, rfl⟩ | hi := instr_kind i
  · exact hs.routine h
  · exact hs.stage h
  · exact hs.command hi h

/-- Settles O54: a reset answers a construction with legal parameters, and every other move is an instruction's,
which keeps the invariants. -/
theorem everyStepKeepsTheInvariants : Obligations.EveryStepKeepsTheInvariants := by
  intro s t hs h
  obtain ⟨c, rest, u, -, -, htuning, hreset⟩ | ⟨w, rest, i, p, -, -, -, -, hexec⟩ | ⟨p, -, hexec⟩ :=
    step_next h
  · obtain ⟨hlegal, rfl⟩ := performReset_next hreset
    have hinv : (State.construct u.tuning c).Inv :=
      construct_inv (htuning ▸ hs.tuning) (of_decide_eq_true hlegal)
    exact { hinv with }
  · have hissued : State.Inv { s with turns := p, commands := rest } := { hs with }
    exact hissued.exec hexec
  · have hturned : State.Inv { s with turns := p } := { hs with }
    exact hturned.exec hexec

end Sys2Proof.Machine

/-!
PROOF. What no instruction writes, and which routine writes a mode's own registers (10_state R31, R40, R42).
-/

namespace Sys2Proof.Machine

/-- Settles O59: the parameters are among what no instruction writes. -/
theorem parametersAreNeverWritten : Obligations.ParametersAreNeverWritten := by
  intro i s t h
  have k := exec_parametersKept h
  exact ⟨k.numLeds, k.brightness, k.cfgErr, k.tuning⟩

/-! ## The registers of 10_state R35 to R39 -/

/-- A position routine's fault recovery writes no mode's own registers (60_exceptions R263). -/
theorem SamePrivate.withPosition {o : ModeId} {s r : State} (pos : BitVec 16) (h : SamePrivate o s r) :
    SamePrivate o s (withPosition s pos r) := by
  unfold Machine.withPosition
  split
  · cases o <;> trivial
  · exact h

/-- A routine writes no other routine's registers (10_state R40). In the case of its own, `hne` is absurd. -/
theorem routine_samePrivate {m o : ModeId} (hne : m ≠ o) {s t : State}
    (h : exec (instrOfMode m) s = .next t) : SamePrivate o s t := by
  cases m with
  | rainbow | solid | primaryCycle | randomFlash | breathing | colorWipe | theaterChase =>
    obtain ⟨-, h⟩ := whenConfigured_next h
    cases h
    cases o <;> trivial
  | gradient | strobe | pulse | twinkle | sparkle | confetti =>
    obtain ⟨-, h⟩ := whenConfigured_next h
    obtain ⟨-, h⟩ := whenTuned_next h
    cases h
    cases o <;> trivial
  | chase =>
    obtain ⟨-, h⟩ := whenConfigured_next h
    cases h
    exact SamePrivate.withPosition _ (by cases o <;> trivial)
  | scanner =>
    obtain ⟨-, h⟩ := whenConfigured_next h
    cases h
    obtain ⟨d, p, hmove⟩ := scanMove_eq (paintSpot s s.scPos.toNat)
    exact SamePrivate.withPosition _ (by rw [hmove]; cases o <;> trivial)
  | meteor =>
    obtain ⟨-, h⟩ := whenConfigured_next h
    obtain ⟨-, h⟩ := whenTuned_next h
    cases h
    exact SamePrivate.withPosition _ (by cases o <;> trivial)
  | fire =>
    obtain ⟨-, h⟩ := whenConfigured_next h
    obtain ⟨-, h⟩ := whenTuned_next h
    split at h
    · cases h
    · cases h
      cases o <;> trivial

/-- A host command writes no mode's own registers (44_control_commands R230). -/
theorem CommandWrites.samePrivate {s t : State} (h : CommandWrites s t) (o : ModeId) :
    SamePrivate o s t := by
  unfold CommandWrites at h
  rw [h]
  cases o <;> trivial

/-- A stage writes a mode's own registers only in a fill tick of that mode (43_scheduler R207). -/
theorem stage_samePrivate {g : Stage} {o : ModeId} {s t : State} (hrun : ¬ MayRun (instrOfStage g) s o)
    (h : exec (instrOfStage g) s = .next t) : SamePrivate o s t := by
  cases g with
  | idle =>
    obtain ⟨-, h⟩ := whenConfigured_next h
    cases h
    split <;> cases o <;> trivial
  | fill =>
    obtain ⟨-, h⟩ := whenConfigured_next h
    obtain ⟨-, rfl⟩ | ⟨-, -, rfl⟩ | ⟨-, -, u, hu, rfl⟩ := fillGate_next h
    · cases o <;> trivial
    · cases o <;> trivial
    · obtain ⟨v, hv, rfl⟩ := fillTick_next hu
      have hne : routineOf s.mode ≠ o := fun he => hrun (.inr ⟨rfl, he⟩)
      have hsame := routine_samePrivate (s := sampleNow s) hne hv
      cases o <;> exact hsame
  | write =>
    obtain ⟨-, h⟩ := whenConfigured_next h
    cases h
    rw [writeTick_eq]
    split <;> cases o <;> trivial
  | yield =>
    obtain ⟨-, h⟩ := whenConfigured_next h
    cases h
    cases o <;> trivial

/-- An instruction that does not run a routine leaves that routine's registers. -/
theorem exec_samePrivate {i : Instr} {o : ModeId} {s t : State} (h : exec i s = .next t)
    (hrun : ¬ MayRun i s o) : SamePrivate o s t := by
  obtain ⟨m, rfl⟩ | ⟨g, rfl⟩ | hi := instr_kind i
  · exact routine_samePrivate (fun he => hrun (.inl (congrArg instrOfMode he))) h
  · exact stage_samePrivate hrun h
  · exact (command_writes hi h).samePrivate o

/-- Settles O58: `exec_samePrivate` for each of the seven routines with registers of their own. -/
theorem privateStateIsWrittenByItsOwner : Obligations.PrivateStateIsWrittenByItsOwner := by
  intro i s t h
  exact ⟨exec_samePrivate h, exec_samePrivate h, exec_samePrivate h, exec_samePrivate h,
    exec_samePrivate h, exec_samePrivate h, exec_samePrivate h⟩

end Sys2Proof.Machine

/-!
PROOF. The status port: each register under its number, each array under its index (10_state R41, 20_memory R60).
-/

namespace Sys2Proof.Machine

/-! ## STATUS and SOLID_COLOR -/

theorem bit_le_one (b : Bool) : bit b ≤ 1 := by cases b <;> decide

theorem statusWord_toNat (s : State) : (statusWord s).toNat =
    bit s.run + 2 * bit s.pending + 4 * bit s.cfgErr + 16 * (stageCodeOf s.stage).toNat := by
  have := bit_le_one s.run
  have := bit_le_one s.pending
  have := bit_le_one s.cfgErr
  have := (stageCodeOf s.stage).isLt
  rw [statusWord, BitVec.toNat_ofNat]
  omega

/-- A bit of a word, read off the word as a number. -/
theorem getLsbD_eq_of_bit {n : Nat} {w : BitVec n} {i : Nat} {b : Bool} (h : w.toNat / 2 ^ i % 2 = bit b) :
    w.getLsbD i = b := by
  rw [← BitVec.testBit_toNat, Nat.testBit_eq_decide_div_mod_eq, h]
  cases b <;> rfl

/-- `STATUS` bit by bit (10_state R41). -/
theorem statusWord_bits (s : State) :
    (statusWord s).getLsbD 0 = s.run ∧ (statusWord s).getLsbD 1 = s.pending ∧
    (statusWord s).getLsbD 2 = s.cfgErr ∧ (statusWord s).extractLsb' 4 2 = stageCodeOf s.stage ∧
    (statusWord s).getLsbD 3 = false ∧ (statusWord s).toNat < 64 := by
  have hw := statusWord_toNat s
  have hrun := bit_le_one s.run
  have hpending := bit_le_one s.pending
  have hcfg := bit_le_one s.cfgErr
  have hstage := (stageCodeOf s.stage).isLt
  refine ⟨getLsbD_eq_of_bit ?_, getLsbD_eq_of_bit ?_, getLsbD_eq_of_bit ?_, BitVec.eq_of_toNat_eq ?_,
    getLsbD_eq_of_bit (b := false) ?_, ?_⟩
  · omega
  · omega
  · omega
  · rw [toNat_field]
    omega
  · change _ = 0
    omega
  · omega

/-- `SOLID_COLOR` as a number: the valid bit above the pixel word (10_state R28). -/
theorem solidWord_toNat (s : State) : (solidWord s).toNat =
    (if s.solidValid = true then 2 ^ 24 else 0) + s.solidPixel.r.toNat * 65536 +
      s.solidPixel.g.toNat * 256 + s.solidPixel.b.toNat := by
  have hpixel := packPixel_toNat s.solidPixel
  have hlt := (packPixel s.solidPixel).isLt
  rw [solidWord, BitVec.toNat_ofNat, bit]
  split <;> omega

/-! ## The register table and the arrays -/

theorem dirBit_toNat (d : Dir) : (BitVec.ofNat 32 (dirBit d)).toNat = if d = .up then 0 else 1 := by
  cases d <;> rfl

/-- A number the table does not list reads 0 (10_state R41). -/
theorem readRegister_unlisted (s : State) {n : Nat} (hlo : 0x0B < n) (h : n < 0x10 ∨ 0x13 < n) :
    readRegister s n = 0 := by
  unfold readRegister
  split
  case h_17 => rfl
  all_goals omega

/-- A palette index wraps (20_memory R63). -/
theorem pal_mod (k : Nat) : pal (k % 256) = pal k := by
  rw [pal, Nat.mod_mod, pal]

/-- On the strip a byte array reads its element. -/
theorem readByte_toNat {s : State} (m : Memory Byte) {i : Nat} (h : i < s.numPixels) :
    (readByte s m i).map BitVec.toNat = some (m.read 0#8 i).toNat := by
  rw [readByte, if_pos h, Option.map_some, BitVec.toNat_setWidth_of_le (by decide)]

/-- On the strip a pixel array reads its element's pixel word. -/
theorem readPixel_toNat {s : State} (m : Memory Pixel) {i : Nat} (h : i < s.numPixels) :
    (readPixel s m i).map BitVec.toNat = some (packPixel (m.read black i)).toNat := by
  rw [readPixel, if_pos h, Option.map_some, BitVec.toNat_setWidth_of_le (by decide)]

theorem readSpace_pal (s : State) (k : Nat) :
    (readSpace s .pal k).map BitVec.toNat = some (packPixel (pal (k % 256))).toNat := by
  rw [readSpace, Option.map_some, BitVec.toNat_setWidth_of_le (by decide), pal_mod]

/-- Settles O60: every register is zero-extended or a word of fields, every array reads its element. -/
theorem statusPortReadsTheRegisters : Obligations.StatusPortReadsTheRegisters := by
  intro s
  refine ⟨BitVec.toNat_setWidth_of_le ?_, BitVec.toNat_setWidth_of_le ?_, statusWord_bits s,
    BitVec.toNat_setWidth_of_le ?_, BitVec.toNat_setWidth_of_le ?_, BitVec.toNat_setWidth_of_le ?_,
    BitVec.toNat_setWidth_of_le ?_, BitVec.toNat_setWidth_of_le ?_, rfl, rfl, rfl, solidWord_toNat s,
    BitVec.toNat_setWidth_of_le ?_, BitVec.toNat_setWidth_of_le ?_, dirBit_toNat s.scDir,
    BitVec.toNat_setWidth_of_le ?_, fun _ => readRegister_unlisted s, fun _ => rfl, readSpace_pal s,
    fun _ hi => ⟨readPixel_toNat s.buf hi, readByte_toNat s.tw.life hi, readByte_toNat s.sp.life hi,
      readByte_toNat s.cf.life hi, readByte_toNat s.heat hi, readPixel_toNat s.tw.col hi,
      readPixel_toNat s.sp.col hi, readPixel_toNat s.cf.col hi⟩⟩
  all_goals decide

end Sys2Proof.Machine

/-!
PROOF. The palette: `wheel` on its three bands, and the lookup `PAL[x mod 256]` (20_memory R61 to R63).
-/

namespace Sys2Proof.Machine

/-! ## The three bands of `wheel` -/

theorem wheel_outside {p : Int} (h : p < 0 ∨ p > 255) : wheel p = black := if_pos h

theorem wheel_low {k : Nat} (h : k < 85) : wheel k = rgb (3 * k) (255 - 3 * k) 0 := by
  rw [wheel, if_neg (by omega)]
  exact if_pos h

theorem wheel_mid {k : Nat} (h0 : 85 ≤ k) (h : k < 170) :
    wheel k = rgb (255 - 3 * (k - 85)) 0 (3 * (k - 85)) := by
  rw [wheel, if_neg (by omega)]
  exact (if_neg (Nat.not_lt.mpr h0)).trans (if_pos h)

theorem wheel_high {k : Nat} (h0 : 170 ≤ k) (h : k ≤ 255) :
    wheel k = rgb 0 (3 * (k - 170)) (255 - 3 * (k - 170)) := by
  rw [wheel, if_neg (by omega)]
  exact (if_neg (by omega)).trans (if_neg (Nat.not_lt.mpr h0))

/-! ## Its channels as numbers -/

theorem rgb_toNat {r g b : Nat} (hr : r < 256) (hg : g < 256) (hb : b < 256) :
    (rgb r g b).r.toNat = r ∧ (rgb r g b).g.toNat = g ∧ (rgb r g b).b.toNat = b :=
  ⟨channel_toNat hr, channel_toNat hg, channel_toNat hb⟩

theorem wheel_low_toNat {p : Int} (h0 : 0 ≤ p) (h : p < 85) :
    ((wheel p).r.toNat : Int) = 3 * p ∧ ((wheel p).g.toNat : Int) = 255 - 3 * p ∧
      (wheel p).b.toNat = 0 := by
  lift p to Nat using h0
  obtain ⟨hr, hg, hb⟩ := rgb_toNat (r := 3 * p) (g := 255 - 3 * p) (b := 0) (by omega) (by omega) (by omega)
  rw [wheel_low (by omega), hr, hg, hb]
  omega

theorem wheel_mid_toNat {p : Int} (h0 : 85 ≤ p) (h : p < 170) :
    ((wheel p).r.toNat : Int) = 255 - 3 * (p - 85) ∧ (wheel p).g.toNat = 0 ∧
      ((wheel p).b.toNat : Int) = 3 * (p - 85) := by
  lift p to Nat using by omega
  obtain ⟨hr, hg, hb⟩ := rgb_toNat (r := 255 - 3 * (p - 85)) (g := 0) (b := 3 * (p - 85))
    (by omega) (by omega) (by omega)
  rw [wheel_mid (by omega) (by omega), hr, hg, hb]
  omega

theorem wheel_high_toNat {p : Int} (h0 : 170 ≤ p) (h : p ≤ 255) :
    (wheel p).r.toNat = 0 ∧ ((wheel p).g.toNat : Int) = 3 * (p - 170) ∧
      ((wheel p).b.toNat : Int) = 255 - 3 * (p - 170) := by
  lift p to Nat using by omega
  obtain ⟨hr, hg, hb⟩ := rgb_toNat (r := 0) (g := 3 * (p - 170)) (b := 255 - 3 * (p - 170))
    (by omega) (by omega) (by omega)
  rw [wheel_high (by omega) (by omega), hr, hg, hb]
  omega

/-- In each band one channel is 0 and the other two share 255 (20_memory R61). -/
theorem wheel_sum {p : Int} (h0 : 0 ≤ p) (h : p ≤ 255) :
    (wheel p).r.toNat + (wheel p).g.toNat + (wheel p).b.toNat = 255 := by
  obtain hlow | hmid | hhigh : p < 85 ∨ (85 ≤ p ∧ p < 170) ∨ 170 ≤ p := by omega
  · have := wheel_low_toNat h0 hlow
    omega
  · have := wheel_mid_toNat hmid.1 hmid.2
    omega
  · have := wheel_high_toNat hhigh h
    omega

/-- Settles O6: each band by its own lemma, the sum by the bands. -/
theorem wheelFollowsTheThreeBands : Obligations.WheelFollowsTheThreeBands := fun _ =>
  ⟨wheel_outside, wheel_low_toNat, wheel_mid_toNat, wheel_high_toNat, wheel_sum⟩

/-! ## The lookup -/

theorem pal_add_period (x : Nat) : pal (x + 256) = pal x := by
  rw [pal, Nat.add_mod_right, pal]

theorem pal_of_lt {k : Nat} (h : k < 256) : pal k = wheel k := by
  rw [pal, Nat.mod_eq_of_lt h, Int.ofNat_eq_natCast]

/-- An entry's channels sum to 255, black's to 0. -/
theorem pal_ne_black (x : Nat) : pal x ≠ black := by
  have hx : x % 256 < 256 := Nat.mod_lt x (by decide)
  rw [← pal_mod, pal_of_lt hx]
  intro h
  have hsum := wheel_sum (p := (x % 256 : Nat)) (by omega) (by omega)
  rw [h] at hsum
  exact absurd hsum (by decide)

/-- The ramp is cyclic: the first entry of the first band is the last of the third (20_memory R62). -/
theorem pal_zero_eq_last : pal 0 = pal 255 := by
  calc pal 0 = rgb 0 255 0 := wheel_low (by decide)
    _ = pal 255 := (wheel_high (k := 255) (by decide) (by decide)).symm

/-- Settles O7: the index enters only modulo 256, and no entry is black since its channels sum to 255. -/
theorem paletteLookupWrapsAndIsNeverBlack : Obligations.PaletteLookupWrapsAndIsNeverBlack :=
  ⟨fun x => ⟨pal_add_period x, pal_ne_black x⟩, fun _ => pal_of_lt, pal_zero_eq_last⟩

end Sys2Proof.Machine

/-!
PROOF. The encodings: the decoder and the encoder undo each other, and the rows of the opcode table split the
command words (30_encoding R90 to R97).
-/

namespace Sys2Proof

open Machine

/-! ## Mode numbers and stage codes -/

theorem encode_instrOfMode (m : ModeId) : encode (instrOfMode m) = .modeNumber (numberOfMode m) := by
  cases m <;> rfl

theorem modeOfNumber_numberOfMode (m : ModeId) : modeOfNumber (numberOfMode m) = some m := by
  cases m <;> rfl

theorem encode_instrOfStage (g : Stage) : encode (instrOfStage g) = .stageCode (stageCodeOf g) := by
  cases g <;> rfl

theorem stageOfCode_stageCodeOf (g : Stage) : stageOfCode (stageCodeOf g) = g := by
  cases g <;> rfl

theorem decode_encode_mode (m : ModeId) : decode (encode (instrOfMode m)) = .ok (instrOfMode m) := by
  rw [encode_instrOfMode, decode, decodeMode, modeOfNumber_numberOfMode]

theorem decode_encode_stage (g : Stage) : decode (encode (instrOfStage g)) = .ok (instrOfStage g) := by
  rw [encode_instrOfStage, decode, decodeStage, stageOfCode_stageCodeOf]

/-! ## The operand shapes -/

/-- An `imm` holds a byte operand: its upper 16 bits are 0 (30_encoding R91). -/
theorem high_eq_zero_iff (imm : BitVec 24) :
    imm.extractLsb' 8 16 = 0#16 ↔ imm = (imm.extractLsb' 0 8).setWidth 24 := by
  have := imm.isLt
  rw [← BitVec.toNat_inj, ← BitVec.toNat_inj, toNat_field, BitVec.toNat_setWidth, toNat_field,
    BitVec.toNat_zero]
  omega

/-- A byte operand keeps the upper 16 bits 0. -/
theorem high_setWidth (n : BitVec 8) : (n.setWidth 24).extractLsb' 8 16 = 0#16 := by
  apply BitVec.eq_of_toNat_eq
  have := n.isLt
  rw [toNat_field, BitVec.toNat_setWidth, BitVec.toNat_zero]
  omega

theorem low_setWidth (n : BitVec 8) : (n.setWidth 24).extractLsb' 0 8 = n := by
  apply BitVec.eq_of_toNat_eq
  have := n.isLt
  rw [toNat_field, BitVec.toNat_setWidth]
  omega

/-- The low byte of a command word is that of its `imm`. -/
theorem low_immField (w : BitVec 32) : (immField w).extractLsb' 0 8 = w.extractLsb' 0 8 := by
  apply BitVec.eq_of_toNat_eq
  rw [toNat_field, toNat_field, immField, toNat_field]
  omega

/-- A 24-bit word survives being read as an integer (30_encoding R91). -/
theorem ofInt_signed24 (imm : BitVec 24) : BitVec.ofInt 24 (signed24 imm) = imm := BitVec.ofInt_toInt

theorem int24Ok_signed24 (imm : BitVec 24) : int24Ok (signed24 imm) = true := by
  have hlo : -8388608 ≤ imm.toInt := BitVec.le_toInt imm
  have hhi : imm.toInt ≤ 8388607 := Int.le_of_lt_add_one BitVec.toInt_lt
  rw [int24Ok, signed24, decide_eq_true hlo, decide_eq_true hhi, Bool.and_self]

/-! ## Encode, then decode -/

/-- A host command's word decodes to it (30_encoding R91, R92). -/
theorem decode_encode_command {i : Instr} (hi : (opcodeRow i).format = .C) (hwf : i.wellFormed = true) :
    decode (encode i) = .ok i := by
  cases i with
  | setMode n => simp [encode, commandWord, decode, decodeCommand, high_setWidth, low_setWidth]
  | setSpeed z | setFillRate z | setWriteRate z =>
    simp [encode, commandWord, decode, decodeCommand, signed24_ofInt (z := z) hwf]
  | setColor c => simp [encode, commandWord, decode, decodeCommand]
  | start | stop | clrColor => rfl
  | _ => cases hi

/-- Settles O1: by the three formats of an instruction. -/
theorem decodeOfEncodeIsTheInstruction : Obligations.DecodeOfEncodeIsTheInstruction := by
  intro i hwf
  obtain ⟨m, rfl⟩ | ⟨g, rfl⟩ | hi := instr_kind i
  · exact decode_encode_mode m
  · exact decode_encode_stage g
  · exact decode_encode_command hi hwf

/-! ## Decode, then encode -/

theorem fields_append_eq_iff {op : BitVec 8} {imm : BitVec 24} {w : BitVec 32} :
    op ++ imm = w ↔ opField w = op ∧ immField w = imm := by
  constructor
  · rintro rfl
    exact ⟨opField_append op imm, immField_append op imm⟩
  · rintro ⟨rfl, rfl⟩
    exact append_fields w

theorem commandWord_eq_iff {op : BitVec 8} {imm : BitVec 24} {w : BitVec 32} :
    commandWord op imm = .command w ↔ opField w = op ∧ immField w = imm := by
  rw [commandWord, Encoding.command.injEq, fields_append_eq_iff]

theorem bareCommand_ok_imm {w : BitVec 32} {i j : Instr} (h : bareCommand w i = .ok j) : immField w = 0 := by
  unfold bareCommand at h
  split at h
  · assumption
  · cases h

/-- What each row reads from a command word is what its encoding writes there (30_encoding R91, R92). -/
theorem decodeCommand_ok {w : BitVec 32} {i : Instr} (h : decodeCommand w = .ok i) :
    i.wellFormed = true ∧ encode i = .command w := by
  unfold decodeCommand at h
  split at h
  case h_1 hop =>
    split at h <;> cases h
    next himm =>
      exact ⟨rfl, commandWord_eq_iff.mpr ⟨BitVec.eq_of_toNat_eq hop, (high_eq_zero_iff _).mp himm⟩⟩
  case h_2 hop | h_3 hop | h_4 hop =>
    cases h
    exact ⟨int24Ok_signed24 _, commandWord_eq_iff.mpr ⟨BitVec.eq_of_toNat_eq hop, (ofInt_signed24 _).symm⟩⟩
  case h_7 hop =>
    cases h
    exact ⟨rfl, commandWord_eq_iff.mpr ⟨BitVec.eq_of_toNat_eq hop, (pack_unpack _).symm⟩⟩
  case h_5 hop | h_6 hop | h_8 hop =>
    obtain rfl := bareCommand_ok h
    exact ⟨rfl, commandWord_eq_iff.mpr ⟨BitVec.eq_of_toNat_eq hop, bareCommand_ok_imm h⟩⟩
  case h_9 => cases h

/-- Settles O2: `decodeCommand_ok`, by the rows of the decoder. -/
theorem decodedCommandEncodesBack : Obligations.DecodedCommandEncodesBack := fun _ _ => decodeCommand_ok

/-! ## The rows of the opcode table -/

/-- A well-formed instruction's command word is the only word that decodes to it. -/
theorem decodeCommand_ok_iff {w : BitVec 32} {i : Instr} (hwf : i.wellFormed = true) :
    decodeCommand w = .ok i ↔ encode i = .command w := by
  refine ⟨fun h => (decodeCommand_ok h).2, fun h => ?_⟩
  have hdecode := decodeOfEncodeIsTheInstruction i hwf
  rwa [h] at hdecode

/-- A mask acts on the two fields of a command word (30_encoding R90). -/
theorem and_eq_append_iff {w : BitVec 32} {mop op : BitVec 8} {mimm imm : BitVec 24} :
    w &&& (mop ++ mimm) = op ++ imm ↔ opField w &&& mop = op ∧ immField w &&& mimm = imm := by
  have hmask : w &&& (mop ++ mimm) = (opField w &&& mop) ++ (immField w &&& mimm) := by
    rw [← BitVec.and_append, append_fields]
  rw [hmask, fields_append_eq_iff, opField_append, immField_append, eq_comm, eq_comm (a := imm)]

/-- A row whose operand is all of `imm` masks `op` alone (30_encoding R92). -/
theorem and_opMask_eq_iff {w : BitVec 32} {op : BitVec 8} :
    w &&& 0xFF000000 = op ++ 0#24 ↔ opField w = op := by
  have h := and_eq_append_iff (w := w) (mop := BitVec.allOnes 8) (op := op) (mimm := 0#24) (imm := 0#24)
  rw [BitVec.and_allOnes, BitVec.and_zero] at h
  simpa using h

/-- Under its mask an `imm` with a byte operand is its upper 16 bits. -/
theorem and_highMask_eq_zero_iff (imm : BitVec 24) :
    imm &&& (BitVec.allOnes 16 ++ 0#8) = 0#24 ↔ imm.extractLsb' 8 16 = 0#16 := by
  have hsplit : imm.extractLsb' 8 16 ++ imm.extractLsb' 0 8 = imm := by
    rw [BitVec.extractLsb'_append_extractLsb'_eq_extractLsb' (start₂ := 8) rfl, BitVec.extractLsb'_eq_self]
  have hmask : imm &&& (BitVec.allOnes 16 ++ 0#8) = imm.extractLsb' 8 16 ++ 0#8 := by
    conv_lhs => rw [← hsplit]
    rw [BitVec.and_append, BitVec.and_allOnes, BitVec.and_zero]
  rw [hmask, ← BitVec.toNat_inj, ← BitVec.toNat_inj, toNat_concat]
  simp

/-- `SET_MODE`'s row masks `op` and the upper 16 bits of `imm` (30_encoding R92). -/
theorem and_byteMask_eq_iff {w : BitVec 32} {op : BitVec 8} :
    w &&& 0xFFFFFF00 = op ++ 0#24 ↔ opField w = op ∧ (immField w).extractLsb' 8 16 = 0#16 := by
  have h := and_eq_append_iff (w := w) (mop := BitVec.allOnes 8) (op := op)
    (mimm := BitVec.allOnes 16 ++ 0#8) (imm := 0#24)
  rw [BitVec.and_allOnes] at h
  exact h.trans (and_congr_right' (and_highMask_eq_zero_iff _))

/-- A row whose operand is all of `imm` (30_encoding R91, R92). -/
theorem immRow_iff {w : BitVec 32} {op : BitVec 8} {i : Instr} (hwf : i.wellFormed = true)
    (hencode : encode i = commandWord op (immField w)) :
    w &&& 0xFF000000 = op ++ 0#24 ↔ decodeCommand w = .ok i := by
  rw [and_opMask_eq_iff, decodeCommand_ok_iff hwf, hencode, commandWord_eq_iff, and_iff_left rfl]

/-- A row with no operand (30_encoding R91, R92). -/
theorem bareRow_iff {w : BitVec 32} {op : BitVec 8} {i : Instr} (hwf : i.wellFormed = true)
    (hencode : encode i = commandWord op 0) : w = op ++ 0#24 ↔ decodeCommand w = .ok i := by
  rw [decodeCommand_ok_iff hwf, hencode, commandWord, Encoding.command.injEq, eq_comm]
  rfl

theorem setMode_row (w : BitVec 32) :
    w &&& 0xFFFFFF00 = 0x01000000 ↔ decodeCommand w = .ok (.setMode (w.extractLsb' 0 8)) := by
  rw [decodeCommand_ok_iff rfl, encode, commandWord_eq_iff, ← low_immField, ← high_eq_zero_iff]
  exact and_byteMask_eq_iff (op := 0x01)

theorem setSpeed_row (w : BitVec 32) :
    w &&& 0xFF000000 = 0x02000000 ↔ decodeCommand w = .ok (.setSpeed (w.extractLsb' 0 24).toInt) :=
  immRow_iff (op := 0x02) (int24Ok_signed24 _) (congrArg (commandWord 0x02) (ofInt_signed24 _))

theorem setFillRate_row (w : BitVec 32) :
    w &&& 0xFF000000 = 0x03000000 ↔ decodeCommand w = .ok (.setFillRate (w.extractLsb' 0 24).toInt) :=
  immRow_iff (op := 0x03) (int24Ok_signed24 _) (congrArg (commandWord 0x03) (ofInt_signed24 _))

theorem setWriteRate_row (w : BitVec 32) :
    w &&& 0xFF000000 = 0x04000000 ↔ decodeCommand w = .ok (.setWriteRate (w.extractLsb' 0 24).toInt) :=
  immRow_iff (op := 0x04) (int24Ok_signed24 _) (congrArg (commandWord 0x04) (ofInt_signed24 _))

theorem start_row (w : BitVec 32) : w = 0x05000000 ↔ decodeCommand w = .ok .start :=
  bareRow_iff (op := 0x05) rfl rfl

theorem stop_row (w : BitVec 32) : w = 0x06000000 ↔ decodeCommand w = .ok .stop :=
  bareRow_iff (op := 0x06) rfl rfl

/-- The channels of a colour operand stand in `imm` as in the whole word. -/
theorem unpackPixel_immField (w : BitVec 32) :
    unpackPixel (immField w) = ⟨w.extractLsb' 16 8, w.extractLsb' 8 8, w.extractLsb' 0 8⟩ := by
  simp only [unpackPixel, Pixel.mk.injEq, ← BitVec.toNat_inj, toNat_field, immField]
  omega

theorem setColor_row (w : BitVec 32) :
    w &&& 0xFF000000 = 0x07000000 ↔ decodeCommand w =
      .ok (.setColor ⟨w.extractLsb' 16 8, w.extractLsb' 8 8, w.extractLsb' 0 8⟩) := by
  rw [← unpackPixel_immField]
  exact immRow_iff (op := 0x07) rfl (congrArg (commandWord 0x07) (pack_unpack _))

theorem clrColor_row (w : BitVec 32) : w = 0x08000000 ↔ decodeCommand w = .ok .clrColor :=
  bareRow_iff (op := 0x08) rfl rfl

/-! ## Reserved words -/

/-- The word matches one of the eight rows of 30_encoding R92. -/
def MatchesRow (w : BitVec 32) : Prop :=
  w &&& 0xFFFFFF00 = 0x01000000 ∨ w &&& 0xFF000000 = 0x02000000 ∨ w &&& 0xFF000000 = 0x03000000 ∨
    w &&& 0xFF000000 = 0x04000000 ∨ w = 0x05000000 ∨ w = 0x06000000 ∨
    w &&& 0xFF000000 = 0x07000000 ∨ w = 0x08000000

theorem bareCommand_error {w : BitVec 32} {i : Instr} {r : Reject} (h : bareCommand w i = .error r) :
    r = .reservedCommand w := by
  unfold bareCommand at h
  split at h <;> cases h
  rfl

/-- A command word is rejected for being reserved and for nothing else (30_encoding R93). -/
theorem decodeCommand_error {w : BitVec 32} {r : Reject} (h : decodeCommand w = .error r) :
    r = .reservedCommand w := by
  unfold decodeCommand at h
  split at h
  case h_1 =>
    split at h <;> cases h
    rfl
  case h_2 | h_3 | h_4 | h_7 => cases h
  case h_5 | h_6 | h_8 => exact bareCommand_error h
  case h_9 =>
    cases h
    rfl

/-- The word of a host command matches the command's row. -/
theorem MatchesRow.of_encode {w : BitVec 32} {i : Instr} (h : encode i = .command w) : MatchesRow w := by
  cases i with
  | setMode n =>
    obtain ⟨hop, himm⟩ := commandWord_eq_iff.mp h
    exact .inl (and_byteMask_eq_iff.mpr ⟨hop, himm ▸ high_setWidth n⟩)
  | setSpeed z => exact .inr (.inl (and_opMask_eq_iff.mpr (commandWord_eq_iff.mp h).1))
  | setFillRate z => exact .inr (.inr (.inl (and_opMask_eq_iff.mpr (commandWord_eq_iff.mp h).1)))
  | setWriteRate z => exact .inr (.inr (.inr (.inl (and_opMask_eq_iff.mpr (commandWord_eq_iff.mp h).1))))
  | start => exact .inr (.inr (.inr (.inr (.inl (Encoding.command.inj h).symm))))
  | stop => exact .inr (.inr (.inr (.inr (.inr (.inl (Encoding.command.inj h).symm)))))
  | setColor c =>
    exact .inr (.inr (.inr (.inr (.inr (.inr (.inl (and_opMask_eq_iff.mpr (commandWord_eq_iff.mp h).1)))))))
  | clrColor => exact .inr (.inr (.inr (.inr (.inr (.inr (.inr (Encoding.command.inj h).symm))))))
  | _ => cases h

theorem matchesRow_iff (w : BitVec 32) : MatchesRow w ↔ ∃ i, decodeCommand w = .ok i := by
  constructor
  · rintro (h | h | h | h | h | h | h | h)
    · exact ⟨_, (setMode_row w).mp h⟩
    · exact ⟨_, (setSpeed_row w).mp h⟩
    · exact ⟨_, (setFillRate_row w).mp h⟩
    · exact ⟨_, (setWriteRate_row w).mp h⟩
    · exact ⟨_, (start_row w).mp h⟩
    · exact ⟨_, (stop_row w).mp h⟩
    · exact ⟨_, (setColor_row w).mp h⟩
    · exact ⟨_, (clrColor_row w).mp h⟩
  · rintro ⟨i, h⟩
    exact .of_encode (decodeCommand_ok h).2

theorem decodeCommand_reserved_iff (w : BitVec 32) :
    decodeCommand w = .error (.reservedCommand w) ↔ ¬ MatchesRow w := by
  rw [matchesRow_iff]
  cases h : decodeCommand w with
  | ok i => simp
  | error r => simp [decodeCommand_error h]

/-- Settles O3: row by row, and a word that no row matches decodes to no instruction. -/
theorem eachCommandRowDecodesItsWords : Obligations.EachCommandRowDecodesItsWords := fun w =>
  ⟨setMode_row w, setSpeed_row w, setFillRate_row w, setWriteRate_row w, start_row w, stop_row w,
    setColor_row w, clrColor_row w, decodeCommand_reserved_iff w⟩

/-! ## Written-out words -/

/-- Settles O4: the fifteen lines are closed terms, which the assembler evaluates. -/
theorem workedEncodingsAssemble : Obligations.WorkedEncodingsAssemble := by
  unfold Obligations.WorkedEncodingsAssemble
  decide

/-- Settles O5: the words are closed terms, which the decoder and the packing evaluate. -/
theorem writtenWordsDecode : Obligations.WrittenWordsDecode := by
  unfold Obligations.WrittenWordsDecode
  decide

end Sys2Proof

/-!
PROOF. The stateless routines paint what their rules say (40_modes_stateless R121 to R130).
-/

namespace Sys2Proof.Machine

/-- Painting the strip shows any picture that agrees with the painted one on the strip. -/
theorem painted_paintStrip {s : State} {f g : Nat → Pixel} (hfg : ∀ i, i < s.numPixels → f i = g i) :
    Painted s (paintStrip s f) g := by
  intro i
  rw [read_paintStrip]
  split
  · next hi => exact hfg i hi
  · rfl

/-- Painting the strip in one colour shows that colour on every pixel. -/
theorem painted_paintStrip_const {s : State} {c d : Pixel} (h : c = d) :
    Painted s (paintStrip s (fun _ => c)) (fun _ => d) :=
  painted_paintStrip fun _ _ => h

/-! ## Palette gradients -/

/-- Settles O19: the routine's index enters the palette modulo 256. -/
theorem rainbowPaintsTheScrollingGradient : Obligations.RainbowPaintsTheScrollingGradient := fun s hc =>
  ⟨_, whenConfigured_ok hc _, paintStrip_frame s _,
    painted_paintStrip fun i _ => (pal_mod (rainbowIndex s i)).symm⟩

/-- Settles O25: Rainbow's argument with the span for 255. -/
theorem gradientSpansItsSteps : Obligations.GradientSpansItsSteps := fun s hc ht =>
  ⟨_, (whenConfigured_ok hc _).trans (whenTuned_ok ht _), paintStrip_frame s _,
    painted_paintStrip fun i _ => (pal_mod (gradientIndex s i)).symm⟩

/-! ## One colour on the whole strip -/

/-- Settles O20: by the valid bit. -/
theorem solidPaintsOneColor : Obligations.SolidPaintsOneColor := fun s hc =>
  ⟨_, whenConfigured_ok hc _, paintStrip_frame s _,
    fun hv => painted_paintStrip_const (if_pos hv),
    fun hv => painted_paintStrip_const (if_neg (by simp [hv]))⟩

/-- Settles O21: by the three bands of the phase. -/
theorem primaryCyclePaintsTheBandColor : Obligations.PrimaryCyclePaintsTheBandColor := fun s hc =>
  ⟨_, whenConfigured_ok hc _, paintStrip_frame s _,
    fun hlow => painted_paintStrip_const (if_pos hlow),
    fun hlow hmid => painted_paintStrip_const ((if_neg (by omega)).trans (if_pos hmid)),
    fun hhigh => painted_paintStrip_const ((if_neg (by omega)).trans (if_neg (by omega)))⟩

/-- The pixel of a 24-bit word by the bytes of its number (00_scope R9). -/
theorem unpackPixel_ofNat (v : Nat) :
    unpackPixel (BitVec.ofNat 24 v) = rgb (v % 2 ^ 24 / 65536) (v / 256 % 256) (v % 256) := by
  simp only [unpackPixel, rgb, channel, Pixel.mk.injEq, ← BitVec.toNat_inj, toNat_field, BitVec.toNat_ofNat]
  omega

/-- Settles O22: the one draw is a 24-bit number, whose bytes are the colour. -/
theorem randomFlashPaintsOneDraw : Obligations.RandomFlashPaintsOneDraw := by
  intro s hc
  refine ⟨_, whenConfigured_ok hc _, rfl, rfl, painted_paintStrip_const ?_⟩
  have hdraw : (drawBelow (2 ^ 24) s.random).1 = drawnNumber s.random 0 % 2 ^ 24 := rfl
  rw [hdraw, unpackPixel_ofNat]
  congr 1 <;> omega

/-- The triangle envelope: twice the distance to the nearer end, cut at the peak (40 R125). -/
theorem breathingEnvelope_rising {phase : Nat} (h : phase < 128) : breathingEnvelope phase = 2 * phase := by
  unfold breathingEnvelope
  omega

theorem breathingEnvelope_peak : breathingEnvelope 128 = 255 := rfl

theorem breathingEnvelope_falling {phase : Nat} (h : 128 < phase) :
    breathingEnvelope phase = 2 * (256 - phase) := by
  unfold breathingEnvelope
  omega

/-- Settles O23: by the two slopes of the envelope and its peak, at which the scaling is the identity. -/
theorem breathingScalesByTheTriangle : Obligations.BreathingScalesByTheTriangle := fun s hc =>
  ⟨_, whenConfigured_ok hc _, paintStrip_frame s _,
    fun hrise => painted_paintStrip_const (by rw [breathingEnvelope_rising hrise]),
    fun hpeak => painted_paintStrip_const (by rw [hpeak, breathingEnvelope_peak, scale_full]),
    fun hfall => painted_paintStrip_const (by rw [breathingEnvelope_falling hfall])⟩

/-- Settles O27: by the two parts of the period. -/
theorem strobeLightsThePeriodsStart : Obligations.StrobeLightsThePeriodsStart := fun s hc ht =>
  ⟨_, (whenConfigured_ok hc _).trans (whenTuned_ok ht _), paintStrip_frame s _,
    fun hon => painted_paintStrip_const (if_pos hon),
    fun hoff => painted_paintStrip_const (if_neg (Nat.not_lt.mpr hoff))⟩

/-- The constraint of 00_scope R7 on `PULSE_PERIOD`. -/
theorem tuningLegal_pulsePeriod {t : Tuning} (h : tuningLegal t = true) : 1 ≤ t.pulsePeriod := by
  simp only [tuningLegal, Bool.and_eq_true, decide_eq_true_eq] at h
  omega

/-- The part of a period that has passed takes less than 255 from the sawtooth (40 R130). -/
theorem sawtooth_loss_lt {period : Nat} (h : 1 ≤ period) (phase : Nat) :
    phase % period * 255 / period < 255 :=
  Nat.div_lt_of_lt_mul (Nat.mul_lt_mul_of_pos_right (Nat.mod_lt phase h) (by decide))

/-- Settles O28: the envelope's loss stays below 255, so its subtraction from 255 is exact and leaves 1. -/
theorem pulseScalesByTheSawtooth : Obligations.PulseScalesByTheSawtooth := by
  intro s hc ht
  have hloss := sawtooth_loss_lt (tuningLegal_pulsePeriod ht) s.phase.toNat
  exact ⟨_, pulseEnvelope s.tuning.pulsePeriod s.phase.toNat,
    (whenConfigured_ok hc _).trans (whenTuned_ok ht _), paintStrip_frame s _,
    by unfold pulseEnvelope; omega, by unfold pulseEnvelope; omega, painted_paintStrip_const rfl⟩

/-! ## Lit and dark pixels -/

/-- Color wipe's boundary without its division (40 R126). -/
theorem le_wipeBoundary_iff (s : State) (i : Nat) :
    i ≤ wipeBoundary s ↔ i * 256 ≤ s.phase.toNat * s.numPixels :=
  Nat.le_div_iff_mul_le (by decide)

/-- Settles O24: pixel 0 lies within every boundary. -/
theorem colorWipeLightsUpToTheBoundary : Obligations.ColorWipeLightsUpToTheBoundary := fun s hc =>
  ⟨_, whenConfigured_ok hc _, paintStrip_frame s _,
    painted_paintStrip fun i _ => by simp only [le_wipeBoundary_iff],
    fun h0 => by rw [read_paintStrip, if_pos h0, if_pos (Nat.zero_le _)]⟩

/-- Settles O26: divisibility by 3 is remainder 0. -/
theorem theaterChaseLightsEveryThirdPixel : Obligations.TheaterChaseLightsEveryThirdPixel := fun s hc =>
  ⟨_, whenConfigured_ok hc _, paintStrip_frame s _,
    painted_paintStrip fun i _ => by simp only [Nat.dvd_iff_mod_eq_zero]⟩

end Sys2Proof.Machine

/-!
PROOF. What a routine writes: the log only by its fault, the random port only by its draws, and of the routines'
registers its own (40_modes_stateless R120, 60_exceptions R262, R263, R278).
-/

namespace Sys2Proof.Machine

/-! ## The log and the random port -/

/-- A routine with a position register logs the fault where its position is off the strip, and nothing
else. -/
theorem withPosition_log {s r : State} (pos : BitVec 16) (hr : r.log = s.log) :
    (withPosition s pos r).log = if s.numPixels ≤ pos.toNat then s.log ++ [⟨0x01, s.mode⟩] else s.log := by
  split
  · next h => rw [withPosition_fault h]; rfl
  · next h => rw [withPosition_ok (Nat.lt_of_not_le h), hr]

theorem withPosition_random {s r : State} (pos : BitVec 16) (hr : r.random = s.random) :
    (withPosition s pos r).random = s.random := by
  unfold withPosition
  split
  · rfl
  · exact hr

/-- A routine logs exactly its mode fault (60_exceptions R263) and uses the random port only if it draws
(R278). -/
theorem routine_log_random {m : ModeId} {s t : State} (h : exec (instrOfMode m) s = .next t) :
    t.log = (if modeFaults m s = true then s.log ++ [⟨0x01, s.mode⟩] else s.log) ∧
    (drawsNumbers m = false → t.random = s.random) := by
  cases m with
  | rainbow | solid | primaryCycle | breathing | colorWipe | theaterChase =>
    obtain ⟨-, h⟩ := whenConfigured_next h
    cases h
    exact ⟨rfl, fun _ => rfl⟩
  | randomFlash =>
    obtain ⟨-, h⟩ := whenConfigured_next h
    cases h
    exact ⟨rfl, nofun⟩
  | gradient | strobe | pulse =>
    obtain ⟨-, h⟩ := whenConfigured_next h
    obtain ⟨-, h⟩ := whenTuned_next h
    cases h
    exact ⟨rfl, fun _ => rfl⟩
  | twinkle | sparkle | confetti =>
    obtain ⟨-, h⟩ := whenConfigured_next h
    obtain ⟨-, h⟩ := whenTuned_next h
    cases h
    exact ⟨rfl, nofun⟩
  | chase =>
    obtain ⟨-, h⟩ := whenConfigured_next h
    cases h
    simp only [modeFaults, decide_eq_true_eq]
    exact ⟨withPosition_log _ rfl, fun _ => withPosition_random _ rfl⟩
  | scanner =>
    obtain ⟨-, h⟩ := whenConfigured_next h
    cases h
    obtain ⟨d, p, hmove⟩ := scanMove_eq (paintSpot s s.scPos.toNat)
    simp only [modeFaults, decide_eq_true_eq, hmove]
    exact ⟨withPosition_log _ rfl, fun _ => withPosition_random _ rfl⟩
  | meteor =>
    obtain ⟨-, h⟩ := whenConfigured_next h
    obtain ⟨-, h⟩ := whenTuned_next h
    cases h
    simp only [modeFaults, decide_eq_true_eq]
    exact ⟨withPosition_log _ rfl, fun _ => withPosition_random _ rfl⟩
  | fire =>
    obtain ⟨-, h⟩ := whenConfigured_next h
    obtain ⟨-, h⟩ := whenTuned_next h
    split at h <;> cases h
    exact ⟨rfl, nofun⟩

/-- Settles O37: of what a routine may write at all, the registers of the other routines stay by
`routine_samePrivate`, the log and the random port by `routine_log_random`. -/
theorem routinesWriteOnlyTheirOwn : Obligations.RoutinesWriteOnlyTheirOwn := by
  intro m s t h
  obtain ⟨hlog, hrandom⟩ := routine_log_random h
  have hown : ∀ o, m ≠ o → SamePrivate o s t := fun o hne => routine_samePrivate hne h
  have hdraws : (if drawsNumbers m = true then s.random else t.random) = s.random :=
    ite_eq_left_iff.2 fun hd => hrandom (Bool.eq_false_iff.2 hd)
  have hchase : (if m = .chase then s.chasePos else t.chasePos) = s.chasePos :=
    ite_eq_left_iff.2 (hown .chase)
  have hscPos : (if m = .scanner then s.scPos else t.scPos) = s.scPos :=
    ite_eq_left_iff.2 fun hne => (hown .scanner hne).1
  have hscDir : (if m = .scanner then s.scDir else t.scDir) = s.scDir :=
    ite_eq_left_iff.2 fun hne => (hown .scanner hne).2
  have hmeteor : (if m = .meteor then s.mtPos else t.mtPos) = s.mtPos := ite_eq_left_iff.2 (hown .meteor)
  have htw : (if m = .twinkle then s.tw else t.tw) = s.tw := ite_eq_left_iff.2 (hown .twinkle)
  have hsp : (if m = .sparkle then s.sp else t.sp) = s.sp := ite_eq_left_iff.2 (hown .sparkle)
  have hcf : (if m = .confetti then s.cf else t.cf) = s.cf := ite_eq_left_iff.2 (hown .confetti)
  have hheat : (if m = .fire then s.heat else t.heat) = s.heat := ite_eq_left_iff.2 (hown .fire)
  have hwrites : RoutineWrites s t := routine_writes h
  unfold RoutineWrites at hwrites
  refine ⟨hlog, ?_⟩
  rw [hdraws, hchase, hscPos, hscDir, hmeteor, htw, hsp, hcf, hheat, hwrites]

end Sys2Proof.Machine

/-!
PROOF. What a routine reads: two states that agree on it answer the same picture, own registers and draws
(40_modes_stateless R120, 41_modes_stateful R150 to R166).
-/

namespace Sys2Proof.Machine

/-- Two answers of a routine show the same on the first `n` pixels and agree on its own registers and on
the random port. -/
structure SameAnswer (m : ModeId) (n : Nat) (t u : State) : Prop where
  strip : ∀ i, i < n → u.buf.read black i = t.buf.read black i
  own : SamePrivate m t u
  random : u.random = t.random

theorem SameInputs.numPixels {m : ModeId} {s s' : State} (h : SameInputs m s s') :
    s'.numPixels = s.numPixels :=
  congrArg BitVec.toNat h.numLeds

/-- A routine that uses a tuning parameter runs where it did: the parameters are the same. -/
theorem SameInputs.whenTuned {m : ModeId} {s s' : State} (h : SameInputs m s s')
    (ht : tuningLegal s.tuning = true) (hc' : s'.cfgErr = false) (k : Result) :
    whenConfigured s' (whenTuned s' k) = k :=
  (whenConfigured_ok hc' _).trans (whenTuned_ok (h.tuning ▸ ht) _)

/-! ## Painting -/

/-- Painted pictures that agree are shown alike, whatever the buffers held. -/
theorem read_paintStrip_congr {s s' : State} (hn : s'.numPixels = s.numPixels) {f f' : Nat → Pixel}
    (hf : ∀ i, f' i = f i) {i : Nat} (hi : i < s.numPixels) :
    (paintStrip s' f').buf.read black i = (paintStrip s f).buf.read black i := by
  rw [read_paintStrip, read_paintStrip, if_pos hi, if_pos (hn ▸ hi), hf]

theorem SamePrivate.paintStrip {m : ModeId} {s s' : State} (h : SamePrivate m s s') (f f' : Nat → Pixel) :
    SamePrivate m (paintStrip s f) (paintStrip s' f') := by
  cases m <;> exact h

/-- A routine that only paints, from pictures that agree. -/
theorem SameInputs.paintStrip {m : ModeId} {s s' : State} (h : SameInputs m s s') {f f' : Nat → Pixel}
    (hf : ∀ i, f' i = f i) : SameAnswer m s.numPixels (paintStrip s f) (paintStrip s' f') :=
  ⟨fun _ => read_paintStrip_congr h.numPixels hf, h.own.paintStrip f f', h.random⟩

/-- The pictures of the routines that paint one lit pixel agree. -/
theorem SameInputs.read_paintSpot {m : ModeId} {s s' : State} (h : SameInputs m s s') {pos pos' : BitVec 16}
    (hpos : pos' = pos) {i : Nat} (hi : i < s.numPixels) :
    (paintSpot s' pos'.toNat).buf.read black i = (paintSpot s pos.toNat).buf.read black i :=
  read_paintStrip_congr h.numPixels (fun _ => by rw [hpos, h.phase]) hi

/-! ## Position routines -/

/-- The recovery from a mode fault reads `PHASE` and `NUM_LEDS` alone (60_exceptions R263). -/
theorem SameInputs.takeModeFault {m : ModeId} {s s' : State} (h : SameInputs m s s') :
    SameAnswer m s.numPixels (takeModeFault s) (takeModeFault s') where
  strip _ := read_paintStrip_congr (s := emitLog s _ _) (s' := emitLog s' _ _) h.numPixels
    (fun _ => by simp [rainbowIndex, h.numPixels, h.phase])
  own := by cases m <;> exact h.own
  random := h.random

/-- A position routine answers alike when it does so on the strip: off it both states recover. -/
theorem SameInputs.withPosition {m : ModeId} {s s' r r' : State} (h : SameInputs m s s') {pos pos' : BitVec 16}
    (hpos : pos' = pos) (hr : SameAnswer m s.numPixels r r') :
    SameAnswer m s.numPixels (withPosition s pos r) (withPosition s' pos' r') := by
  unfold Machine.withPosition
  rw [hpos, h.numPixels]
  split
  · exact h.takeModeFault
  · exact hr

theorem SameInputs.nextPosition {m : ModeId} {s s' : State} (h : SameInputs m s s') {pos pos' : BitVec 16}
    (hpos : pos' = pos) : nextPosition s' pos' = nextPosition s pos := by
  rw [Machine.nextPosition, hpos, h.numPixels, Machine.nextPosition]

/-- Scanner's move reads `NUM_LEDS` and its own two registers, and leaves the buffer and the random port
(41_modes_stateful R153). -/
theorem SameAnswer.scanMove {n : Nat} {t u : State} (h : SameAnswer .scanner n t u)
    (hn : u.numPixels = t.numPixels) : SameAnswer .scanner n (scanMove t) (scanMove u) := by
  obtain ⟨hstrip, ⟨hpos, hdir⟩, hrandom⟩ := h
  have hturn : scanDirection u = scanDirection t := by simp only [scanDirection, hpos, hdir, hn]
  unfold Machine.scanMove
  rw [hn]
  split
  · exact ⟨hstrip, ⟨by simp only [hturn, hpos], hturn⟩, hrandom⟩
  · exact ⟨hstrip, ⟨hpos, hdir⟩, hrandom⟩

/-! ## The decay engine -/

/-- A pixel's turn does not read the buffer: it writes the same colour into whatever buffer
there is (41 R160). -/
theorem decayPixel_buf (a : DecayArgs) (w : DecayWork) (i : Nat) (b : Memory Pixel) :
    decayPixel a { w with buf := b } i =
      { decayPixel a w i with buf := b.write black i ((decayPixel a w i).buf.read black i) } := by
  unfold decayPixel decayLit decayFire
  dsimp only
  split_ifs <;> simp only [Memory.read_write_self]

/-- A decay tick does not read the buffer: with another one it leaves the same file and the same port, and shows
the same on every pixel it has passed. -/
theorem decayTick_buf (a : DecayArgs) (n : Nat) (w : DecayWork) (b : Memory Pixel) :
    ∃ b', decayTick a n { w with buf := b } = { decayTick a n w with buf := b' } ∧
      ∀ i, i < n → b'.read black i = (decayTick a n w).buf.read black i := by
  induction n with
  | zero => exact ⟨b, rfl, by simp⟩
  | succ n ih =>
    obtain ⟨b', htick, hread⟩ := ih
    have hstep : ∀ v, decayTick a (n + 1) v = decayPixel a (decayTick a n v) n := fun v => by
      simp [decayTick, List.range_succ]
    refine ⟨_, by rw [hstep, hstep, htick, decayPixel_buf], fun i hi => ?_⟩
    rw [hstep, Memory.read_write]
    split
    · next heq => rw [heq]
    · next hne =>
      obtain ⟨-, -, hother⟩ := decayPixel_other a (decayTick a n w) hne
      rw [hother, hread i (by omega)]

/-- Decay ticks with the same arguments on the same file, port and strip leave the same file and port and show
the same. -/
theorem SameInputs.decayTick {m : ModeId} {s s' : State} (h : SameInputs m s s') {a a' : DecayArgs}
    (ha : a' = a) {f f' : DecayFile} (hf : f' = f) :
    (∀ i, i < s.numPixels → (decayTick a' s'.numPixels ⟨f', s'.buf, s'.random⟩).buf.read black i =
      (decayTick a s.numPixels ⟨f, s.buf, s.random⟩).buf.read black i) ∧
    (decayTick a' s'.numPixels ⟨f', s'.buf, s'.random⟩).file =
      (decayTick a s.numPixels ⟨f, s.buf, s.random⟩).file ∧
    (decayTick a' s'.numPixels ⟨f', s'.buf, s'.random⟩).random =
      (decayTick a s.numPixels ⟨f, s.buf, s.random⟩).random := by
  rw [ha, hf, h.numPixels, h.random]
  obtain ⟨b', htick, hread⟩ := decayTick_buf a s.numPixels ⟨f, s.buf, s.random⟩ s'.buf
  rw [htick]
  exact ⟨hread, rfl, rfl⟩

/-! ## The routines -/

/-- A routine answers alike in two configured states that agree on what it reads. -/
theorem routine_sameAnswer {m : ModeId} {s s' t : State} (hc' : s'.cfgErr = false) (hin : SameInputs m s s')
    (h : exec (instrOfMode m) s = .next t) :
    ∃ u, exec (instrOfMode m) s' = .next u ∧ SameAnswer m s.numPixels t u := by
  have hphase := hin.phase
  have hpixels := hin.numPixels
  have htuning := hin.tuning
  have hwipe : wipeBoundary s' = wipeBoundary s := by simp only [wipeBoundary, hphase, hpixels]
  cases m with
  | rainbow | primaryCycle | breathing | colorWipe | theaterChase =>
    obtain ⟨-, h⟩ := whenConfigured_next h
    cases h
    exact ⟨_, whenConfigured_ok hc' _, hin.paintStrip fun _ => by
      simp only [rainbowIndex, hwipe, hphase, hpixels]⟩
  | solid =>
    obtain ⟨-, h⟩ := whenConfigured_next h
    cases h
    obtain ⟨hvalid, hpixel⟩ := hin.solid rfl
    exact ⟨_, whenConfigured_ok hc' _, hin.paintStrip fun _ => by
      simp only [solidColor, hphase, hvalid, hpixel]⟩
  | randomFlash =>
    obtain ⟨-, h⟩ := whenConfigured_next h
    cases h
    exact ⟨_, whenConfigured_ok hc' _,
      fun _ => read_paintStrip_congr hpixels fun _ => by rw [hin.random], trivial,
      congrArg Port.advance hin.random⟩
  | gradient | strobe | pulse =>
    obtain ⟨-, h⟩ := whenConfigured_next h
    obtain ⟨ht, h⟩ := whenTuned_next h
    cases h
    exact ⟨_, hin.whenTuned ht hc' _,
      hin.paintStrip fun _ => by simp only [gradientIndex, strobeColor, hphase, hpixels, htuning]⟩
  | chase =>
    obtain ⟨-, h⟩ := whenConfigured_next h
    cases h
    exact ⟨_, whenConfigured_ok hc' _, hin.withPosition hin.own
      ⟨fun _ => hin.read_paintSpot hin.own, hin.nextPosition hin.own, hin.random⟩⟩
  | scanner =>
    obtain ⟨-, h⟩ := whenConfigured_next h
    cases h
    obtain ⟨hpos, hdir⟩ := hin.own
    exact ⟨_, whenConfigured_ok hc' _, hin.withPosition hpos
      (SameAnswer.scanMove ⟨fun _ => hin.read_paintSpot hpos, ⟨hpos, hdir⟩, hin.random⟩ hpixels)⟩
  | meteor =>
    obtain ⟨-, h⟩ := whenConfigured_next h
    obtain ⟨ht, h⟩ := whenTuned_next h
    cases h
    have hpos : s'.mtPos = s.mtPos := hin.own
    have hbuf : meteorBuffer s' = meteorBuffer s := by
      simp only [meteorBuffer, hphase, hpixels, htuning, hpos, hin.buf rfl]
    exact ⟨_, hin.whenTuned ht hc' _, hin.withPosition hpos
      ⟨fun _ _ => by rw [hbuf], hin.nextPosition hpos, hin.random⟩⟩
  | twinkle =>
    obtain ⟨-, h⟩ := whenConfigured_next h
    obtain ⟨ht, h⟩ := whenTuned_next h
    cases h
    have hargs : twinkleArgs s' = twinkleArgs s := by simp only [twinkleArgs, htuning]
    obtain ⟨hbuf, hfile, hrandom⟩ := hin.decayTick hargs hin.own
    exact ⟨_, hin.whenTuned ht hc' _, hbuf, hfile, hrandom⟩
  | sparkle =>
    obtain ⟨-, h⟩ := whenConfigured_next h
    obtain ⟨ht, h⟩ := whenTuned_next h
    cases h
    have hargs : sparkleArgs s' = sparkleArgs s := by simp only [sparkleArgs, hphase, htuning]
    obtain ⟨hbuf, hfile, hrandom⟩ := hin.decayTick hargs hin.own
    exact ⟨_, hin.whenTuned ht hc' _, hbuf, hfile, hrandom⟩
  | confetti =>
    obtain ⟨-, h⟩ := whenConfigured_next h
    obtain ⟨ht, h⟩ := whenTuned_next h
    cases h
    have hargs : confettiArgs s' = confettiArgs s := by simp only [confettiArgs, hphase, htuning]
    obtain ⟨hbuf, hfile, hrandom⟩ := hin.decayTick hargs hin.own
    exact ⟨_, hin.whenTuned ht hc' _, hbuf, hfile, hrandom⟩
  | fire =>
    obtain ⟨-, h⟩ := whenConfigured_next h
    obtain ⟨ht, h⟩ := whenTuned_next h
    split at h
    · cases h
    next hpixel =>
    cases h
    have hown : s'.heat = s.heat := hin.own
    have hheat : fireHeat s' = fireHeat s := by
      simp only [fireHeat, hpixels, htuning, hown, hin.random]
    exact ⟨_, (hin.whenTuned ht hc' _).trans (if_neg (hpixels ▸ hpixel)),
      fun _ => read_paintStrip_congr hpixels fun _ => by rw [hheat],
      congrArg HeatWork.heat hheat, congrArg HeatWork.random hheat⟩

/-- Settles O38: `routine_sameAnswer`, taken apart. -/
theorem routinesDoNotReadTheRest : Obligations.RoutinesDoNotReadTheRest := by
  intro m s s' t hc' hin h
  obtain ⟨u, hexec, hstrip, hown, hrandom⟩ := routine_sameAnswer hc' hin h
  exact ⟨u, hexec, hstrip, hown, hrandom⟩

end Sys2Proof.Machine

/-!
PROOF. The routines with private state: the position modes, the decay engine's three files and Fire
(41_modes_stateful R150 to R167).
-/

namespace Sys2Proof.Machine

/-! ## Fire's colour ramp -/

theorem heatColor_low {h : Nat} (hlow : h < 85) : heatColor h = rgb (3 * h) 0 0 := if_pos hlow

theorem heatColor_mid {h : Nat} (h0 : 85 ≤ h) (hmid : h < 170) : heatColor h = rgb 255 (3 * (h - 85)) 0 :=
  (if_neg (Nat.not_lt.mpr h0)).trans (if_pos hmid)

theorem heatColor_high {h : Nat} (h0 : 170 ≤ h) : heatColor h = rgb 255 255 (3 * (h - 170)) :=
  (if_neg (by omega)).trans (if_neg (Nat.not_lt.mpr h0))

/-- Settles O9: in each band the one channel that moves stays below 256. -/
theorem heatColorFollowsTheThreeBands : Obligations.HeatColorFollowsTheThreeBands := by
  intro h hle
  refine ⟨fun hlow => ?_, fun h0 hmid => ?_, fun h0 => ?_⟩
  · rw [heatColor_low hlow]
    exact rgb_toNat (by omega) (by omega) (by omega)
  · rw [heatColor_mid h0 hmid]
    obtain ⟨hr, hg, hb⟩ := rgb_toNat (r := 255) (g := 3 * (h - 85)) (b := 0) (by omega) (by omega) (by omega)
    exact ⟨hr, by omega, hb⟩
  · rw [heatColor_high h0]
    obtain ⟨hr, hg, hb⟩ := rgb_toNat (r := 255) (g := 255) (b := 3 * (h - 170))
      (by omega) (by omega) (by omega)
    exact ⟨hr, hg, by omega⟩

/-! ## Chase -/

/-- Chase on the strip: the spot at its position, which then moves on (41 R150). -/
theorem chase_on_strip {s : State} (hc : s.cfgErr = false) (hpos : s.chasePos.toNat < s.numPixels) :
    exec .modeChase s =
      .next { paintSpot s s.chasePos.toNat with chasePos := nextPosition s s.chasePos } :=
  (whenConfigured_ok hc _).trans (congrArg _ (withPosition_ok hpos))

/-- The remainder by which a position wraps, at the end and before it. -/
theorem add_one_mod_eq_ite {pos n : Nat} (h : pos < n) :
    (pos + 1) % n = if pos + 1 = n then 0 else pos + 1 := by
  split
  · next hend => rw [hend, Nat.mod_self]
  · next hin => exact Nat.mod_eq_of_lt (by omega)

/-- Settles O29: by the two sides of the fault test. -/
theorem chasePaintsThenAdvances : Obligations.ChasePaintsThenAdvances := fun s hc =>
  ⟨fun hoff => (whenConfigured_ok hc _).trans (congrArg _ (withPosition_fault hoff)),
    fun hpos => ⟨_, chase_on_strip hc hpos,
      (nextPosition_toNat s s.chasePos (by omega)).trans (add_one_mod_eq_ite hpos), rfl, read_paintStrip s _⟩⟩

/-! ## Scanner -/

theorem scanDirection_up {s : State} (hd : s.scDir = .up) :
    scanDirection s = if s.scPos.toNat = s.numPixels - 1 then .down else .up := by
  rw [scanDirection, hd]

theorem scanDirection_down {s : State} (hd : s.scDir = .down) :
    scanDirection s = if s.scPos.toNat = 0 then .up else .down := by
  rw [scanDirection, hd]

/-- With one pixel nothing moves. -/
theorem scanMove_one_pixel {s : State} (hn : s.numPixels = 1) : scanMove s = s := if_neg (by omega)

/-- Moving up is one index higher, which the strip's length keeps from wrapping. -/
theorem scanMove_up {s : State} (hn : 1 < s.numPixels) (hd : scanDirection s = .up)
    (hpos : s.scPos.toNat + 1 < s.numPixels) :
    (scanMove s).scDir = .up ∧ (scanMove s).scPos.toNat = s.scPos.toNat + 1 := by
  have hlen : s.numPixels < 2 ^ 16 := s.numLeds.isLt
  rw [scanMove, if_pos hn]
  simp only [hd, true_and]
  bv_omega

/-- Moving down is one index lower. -/
theorem scanMove_down {s : State} (hn : 1 < s.numPixels) (hd : scanDirection s = .down)
    (hpos : 0 < s.scPos.toNat) :
    (scanMove s).scDir = .down ∧ (scanMove s).scPos.toNat + 1 = s.scPos.toNat := by
  rw [scanMove, if_pos hn]
  simp only [hd, true_and]
  bv_omega

/-- Scanner's move by its direction and position: the direction flips at the end it heads for. -/
theorem scanMove_bounces (s : State) :
    (s.numPixels = 1 → (scanMove s).scPos = s.scPos ∧ (scanMove s).scDir = s.scDir) ∧
    (1 < s.numPixels → s.scDir = .up → s.scPos.toNat + 1 < s.numPixels →
      (scanMove s).scDir = .up ∧ (scanMove s).scPos.toNat = s.scPos.toNat + 1) ∧
    (1 < s.numPixels → s.scDir = .up → s.scPos.toNat + 1 = s.numPixels →
      (scanMove s).scDir = .down ∧ (scanMove s).scPos.toNat + 1 = s.scPos.toNat) ∧
    (1 < s.numPixels → s.scDir = .down → 0 < s.scPos.toNat →
      (scanMove s).scDir = .down ∧ (scanMove s).scPos.toNat + 1 = s.scPos.toNat) ∧
    (1 < s.numPixels → s.scDir = .down → s.scPos.toNat = 0 →
      (scanMove s).scDir = .up ∧ (scanMove s).scPos.toNat = 1) := by
  refine ⟨fun hone => ?_, fun hn hd hin => ?_, fun hn hd hend => ?_, fun hn hd hin => ?_,
    fun hn hd hend => ?_⟩
  · rw [scanMove_one_pixel hone]
    exact ⟨rfl, rfl⟩
  · exact scanMove_up hn ((scanDirection_up hd).trans (if_neg (by omega))) hin
  · exact scanMove_down hn ((scanDirection_up hd).trans (if_pos (by omega))) (by omega)
  · exact scanMove_down hn ((scanDirection_down hd).trans (if_neg (by omega))) hin
  · obtain ⟨hdir, hnext⟩ := scanMove_up hn ((scanDirection_down hd).trans (if_pos hend)) (by omega)
    exact ⟨hdir, by omega⟩

/-- Settles O30: by the two sides of the fault test; on the strip the spot is painted, then `scanMove`. -/
theorem scannerPaintsThenBounces : Obligations.ScannerPaintsThenBounces := by
  intro s hc
  refine ⟨fun hoff => (whenConfigured_ok hc _).trans (congrArg _ (withPosition_fault hoff)), fun hpos => ?_⟩
  obtain ⟨d, p, hmove⟩ := scanMove_eq (paintSpot s s.scPos.toNat)
  exact ⟨_, (whenConfigured_ok hc _).trans (congrArg _ (withPosition_ok hpos)), by rw [hmove]; rfl,
    by rw [hmove]; exact read_paintStrip s _, scanMove_bounces (paintSpot s s.scPos.toNat)⟩

/-! ## Meteor -/

/-- What a Meteor tick shows: the trail over the dimmed strip, nothing new beyond the strip (41 R156). -/
theorem read_meteorBuffer {s : State} (hpos : s.mtPos.toNat < s.numPixels) (i : Nat) :
    (meteorBuffer s).read black i =
      if i < s.numPixels then
        if i ≤ s.mtPos.toNat ∧ s.mtPos.toNat < i + s.tuning.meteorTrail then
          scale (pal s.phase.toNat) (trailWeight s.tuning.meteorTrail (s.mtPos.toNat - i))
        else dim s.tuning.meteorDim (s.buf.read black i)
      else s.buf.read black i := by
  have htrail : i ≤ s.mtPos.toNat ∧ s.mtPos.toNat - i < s.tuning.meteorTrail ↔
      i ≤ s.mtPos.toNat ∧ s.mtPos.toNat < i + s.tuning.meteorTrail := by omega
  simp only [meteorBuffer, read_paintTrail, Memory.read_updateAll, htrail]
  by_cases hi : i < s.numPixels
  · simp only [if_pos hi]
  · rw [if_neg (by omega), if_neg hi, if_neg hi]

/-- Settles O31: by the two sides of the fault test. -/
theorem meteorDimsThenPaintsTheTrail : Obligations.MeteorDimsThenPaintsTheTrail := by
  intro s hc ht
  have hexec : exec .modeMeteor s = .next (withPosition s s.mtPos
      { s with buf := meteorBuffer s, mtPos := nextPosition s s.mtPos }) :=
    (whenConfigured_ok hc _).trans (whenTuned_ok ht _)
  exact ⟨fun hoff => hexec.trans (congrArg _ (withPosition_fault hoff)),
    fun hpos => ⟨_, hexec.trans (congrArg _ (withPosition_ok hpos)),
      nextPosition_toNat s s.mtPos (by omega), rfl, read_meteorBuffer hpos⟩⟩

/-! ## The decay modes -/

/-- The constraints of 00_scope R7 on the lifetimes of the three decay modes. -/
theorem tuningLegal_lifetimes {t : Tuning} (h : tuningLegal t = true) :
    (t.twLifeMin ≤ t.twLifeMax ∧ t.twLifeMax ≤ 255) ∧ (t.spLifeMin ≤ t.spLifeMax ∧ t.spLifeMax ≤ 255) ∧
    (t.cfLifeMin ≤ t.cfLifeMax ∧ t.cfLifeMax ≤ 255) := by
  simp only [tuningLegal, Bool.and_eq_true, decide_eq_true_eq] at h
  omega

/-- The decay engine on a file, the buffer and the random port of `s`, where `t` takes its results. -/
theorem decayTicked_of_eq {s t : State} {f g : DecayFile} {a : DecayArgs}
    (hlife : a.lmin ≤ a.lmax ∧ a.lmax ≤ 255)
    (hw : decayTick a s.numPixels ⟨f, s.buf, s.random⟩ = ⟨g, t.buf, t.random⟩) :
    DecayTicked s t f g a.den a.lmin a.lmax a.pick.perFire a.pick.hue (shade a) := by
  obtain ⟨hmin, hmax⟩ := hlife
  have hspec := decayTick_spec a ⟨f, s.buf, s.random⟩ hmax hmin s.numPixels
  rw [hw] at hspec
  exact hspec

/-- Settles O32: the decay engine on Twinkle's file; it does not fade, and its hue is a draw from the whole
palette. -/
theorem twinkleDecaysAndFires : Obligations.TwinkleDecaysAndFires := by
  intro s hc ht
  obtain ⟨hlife, -, -⟩ := tuningLegal_lifetimes ht
  exact ⟨_, (whenConfigured_ok hc _).trans (whenTuned_ok ht _), rfl,
    decayTicked_of_eq (a := twinkleArgs s) hlife rfl⟩

/-- Settles O33: the decay engine on Sparkle's file; it does not fade, and its hue needs no draw. -/
theorem sparkleDecaysAndFires : Obligations.SparkleDecaysAndFires := by
  intro s hc ht
  obtain ⟨-, hlife, -⟩ := tuningLegal_lifetimes ht
  exact ⟨_, (whenConfigured_ok hc _).trans (whenTuned_ok ht _), rfl,
    decayTicked_of_eq (a := sparkleArgs s) hlife rfl⟩

/-- Confetti's hue enters the palette modulo 256. -/
theorem confetti_hue (s : State) : (confettiArgs s).pick.hue =
    fun v => pal ((s.phase.toNat + v % s.tuning.cfHueSpread) % 256) :=
  funext fun _ => (pal_mod _).symm

/-- Settles O34: the decay engine on Confetti's file, shown faded. -/
theorem confettiDecaysAndFires : Obligations.ConfettiDecaysAndFires := by
  intro s hc ht
  obtain ⟨-, -, hlife⟩ := tuningLegal_lifetimes ht
  exact ⟨_, (whenConfigured_ok hc _).trans (whenTuned_ok ht _), rfl,
    confetti_hue s ▸ decayTicked_of_eq (a := confettiArgs s) hlife rfl⟩

/-! ## Fire -/

/-- Reheating raises the drawn pixel's heat by a drawn amount, with two draws (41 R166). -/
theorem reheat_spec (heatMin heatMax n : Nat) {w : HeatWork} {p : Port Nat} {k : Nat}
    (hp : w.random = afterDraws p k) :
    (∀ i, (reheat heatMin heatMax n w).heat.read 0#8 i = if i = drawnNumber p k % n
      then channel (min 255 ((w.heat.read 0#8 i).toNat +
        (heatMin + drawnNumber p (k + 1) % (heatMax - heatMin + 1))))
      else w.heat.read 0#8 i) ∧
    (reheat heatMin heatMax n w).random = afterDraws p (k + 2) := by
  simp only [reheat, hp, drawBelow_afterDraws]
  refine ⟨fun i => ?_, trivial⟩
  rw [Memory.read_write]
  split
  · next hi => rw [hi]
  · rfl

/-- Fire's cooling leaves pixel `i` with `cooledHeat` (41 R166). -/
theorem coolAll_toNat {s : State} {i : Nat} (hi : i < s.numPixels) :
    ((coolAll s.tuning.fireCoolMax s.numPixels ⟨s.heat, s.random⟩).heat.read 0#8 i).toNat =
      cooledHeat s i := by
  obtain ⟨hcool, -⟩ := coolAll_spec s.tuning.fireCoolMax s.numPixels ⟨s.heat, s.random⟩
  rw [hcool, if_pos hi]
  exact channel_toNat (Nat.lt_of_le_of_lt (Nat.sub_le _ _) (s.heat.read 0#8 i).isLt)

/-- The two heat phases of a Fire tick: draws `0` to `NL - 1` cool, draw `NL` picks the pixel that draw
`NL + 1` reheats (41 R166). -/
theorem fireHeat_spec {s : State} (hpixel : 0 < s.numPixels) :
    (fireHeat s).random = afterDraws s.random (s.numPixels + 2) ∧
    (∀ i, i < s.numPixels → ((fireHeat s).heat.read 0#8 i).toNat =
      if i = drawnNumber s.random s.numPixels % s.numPixels then
        min 255 (cooledHeat s i + (s.tuning.fireHeatMin + drawnNumber s.random (s.numPixels + 1) %
          (s.tuning.fireHeatMax - s.tuning.fireHeatMin + 1)))
      else cooledHeat s i) ∧
    (∀ i, s.numPixels ≤ i → (fireHeat s).heat.read 0#8 i = s.heat.read 0#8 i) := by
  obtain ⟨hcool, hport⟩ := coolAll_spec s.tuning.fireCoolMax s.numPixels ⟨s.heat, s.random⟩
  obtain ⟨hheat, hrandom⟩ :=
    reheat_spec s.tuning.fireHeatMin s.tuning.fireHeatMax s.numPixels hport
  refine ⟨hrandom, fun i hi => ?_, fun i hi => ?_⟩
  · rw [fireHeat, hheat, ← coolAll_toNat hi]
    split
    · exact channel_toNat (by omega)
    · rfl
  · have hdrawn : drawnNumber s.random s.numPixels % s.numPixels < s.numPixels := Nat.mod_lt _ hpixel
    rw [fireHeat, hheat, if_neg (by dsimp only; omega), hcool, if_neg (Nat.not_lt.mpr hi)]

/-- Settles O35: `fireHeat_spec`, and the strip painted from the heat it leaves. -/
theorem fireCoolsReheatsAndMaps : Obligations.FireCoolsReheatsAndMaps := by
  intro s hc ht hpixel
  obtain ⟨hrandom, hstrip, hbeyond⟩ := fireHeat_spec hpixel
  exact ⟨_, (whenConfigured_ok hc _).trans ((whenTuned_ok ht _).trans (if_neg hpixel.ne')), rfl,
    hrandom, hstrip, hbeyond,
    read_paintStrip { s with heat := (fireHeat s).heat, random := (fireHeat s).random } _⟩

/-! ## Chase over many ticks -/

/-- Fill ticks run Chase, and its position is on the strip. -/
structure State.Chasing (s : State) : Prop where
  configured : s.cfgErr = false
  mode : s.mode = 0x04
  position : s.chasePos.toNat < s.numPixels

theorem fillTicks_succ {s t : State} (h : fillTick s = .next t) (n : Nat) :
    fillTicks (n + 1) s = fillTicks n t := by
  rw [fillTicks, h]

/-- A fill tick with Chase lights its position and moves on (41 R150, 43_scheduler R207). -/
theorem State.Chasing.fillTick {s : State} (h : s.Chasing) :
    ∃ t, fillTick s = .next t ∧ t.Chasing ∧ t.numPixels = s.numPixels ∧
      t.chasePos.toNat = (s.chasePos.toNat + 1) % s.numPixels ∧
      ∀ i, i < s.numPixels → (t.buf.read black i ≠ black ↔ i = s.chasePos.toNat) := by
  have hpixel : 0 < s.numPixels := Nat.zero_lt_of_lt h.position
  have hmode : routineOf s.mode = .chase := by rw [h.mode]; rfl
  have htick : Machine.fillTick s = .next (finishFill
      { paintSpot s s.chasePos.toNat with chasePos := nextPosition s s.chasePos }) := by
    rw [Machine.fillTick, hmode, runRoutine_eq, instrOfMode, chase_on_strip h.configured h.position,
      thenNext_of_next]
  refine ⟨_, htick, ⟨h.configured, h.mode, nextPosition_lt s.chasePos hpixel⟩, rfl,
    nextPosition_toNat s s.chasePos hpixel, fun i hi => ?_⟩
  have hread : (paintSpot s s.chasePos.toNat).buf.read black i =
      if i = s.chasePos.toNat then pal s.phase.toNat else black :=
    (read_paintStrip s _ i).trans (if_pos hi)
  simp only [finishFill_buf, hread]
  split
  · next heq => exact iff_of_true (pal_ne_black _) heq
  · next hne => exact iff_of_false (fun hlit => hlit rfl) hne

/-- After `k + 1` fill ticks with Chase the one lit pixel is `k` positions on, around the strip. -/
theorem State.Chasing.fillTicks (k : Nat) {s : State} (h : s.Chasing) :
    ∃ t, fillTicks (k + 1) s = .next t ∧
      ∀ i, i < s.numPixels → (t.buf.read black i ≠ black ↔ i = (s.chasePos.toNat + k) % s.numPixels) := by
  induction k generalizing s with
  | zero =>
    obtain ⟨t, htick, -, -, -, hlit⟩ := h.fillTick
    have hpos : (s.chasePos.toNat + 0) % s.numPixels = s.chasePos.toNat := Nat.mod_eq_of_lt h.position
    rw [hpos]
    exact ⟨t, fillTicks_succ htick 0, hlit⟩
  | succ k ih =>
    obtain ⟨u, htick, hchasing, hlen, hnext, -⟩ := h.fillTick
    obtain ⟨t, hticks, hlit⟩ := ih hchasing
    have hpos : (u.chasePos.toNat + k) % u.numPixels = (s.chasePos.toNat + (k + 1)) % s.numPixels := by
      rw [hnext, hlen, Nat.mod_add_mod, Nat.add_right_comm, Nat.add_assoc]
    rw [hpos, hlen] at hlit
    exact ⟨t, (fillTicks_succ htick _).trans hticks, hlit⟩

/-- From any start `n` moves around a circle of `n` indices reach each of them exactly once. -/
theorem existsUnique_add_mod {n start i : Nat} (hstart : start < n) (hi : i < n) :
    ∃! k, k < n ∧ i = (start + k) % n := by
  refine ⟨(n - start + i) % n, ⟨Nat.mod_lt _ (by omega), ?_⟩, fun k hk => ?_⟩
  · have hturn : start + (n - start + i) = n + i := by omega
    rw [Nat.add_mod_mod, hturn, Nat.add_mod_left, Nat.mod_eq_of_lt hi]
  · obtain ⟨hlt, rfl⟩ := hk
    have hturn : n - start + (start + k) = n + k := by omega
    rw [Nat.add_mod_mod, hturn, Nat.add_mod_left, Nat.mod_eq_of_lt hlt]

/-- Settles O48: the lit pixel after each number of ticks, and the positions go once around the strip. -/
theorem chaseVisitsEveryPixelOnce : Obligations.ChaseVisitsEveryPixelOnce := by
  intro s hc hm hpos
  have hchasing : s.Chasing := ⟨hc, hm, hpos⟩
  refine ⟨fun k _ => hchasing.fillTicks k, fun i hi => ?_⟩
  have hlit : ∀ k, (∃ t, fillTicks (k + 1) s = .next t ∧ t.buf.read black i ≠ black) ↔
      i = (s.chasePos.toNat + k) % s.numPixels := by
    intro k
    obtain ⟨t, hticks, hread⟩ := hchasing.fillTicks k
    simp only [hticks, Host.Outcome.next.injEq, exists_eq_left', hread i hi]
  simpa only [hlit] using existsUnique_add_mod hpos hi

end Sys2Proof.Machine

/-!
PROOF. The mode registry: what a mode number resolves to, and that the fill tick runs that routine
(42_mode_registry R192 to R194, 43_scheduler R207).
-/

namespace Sys2Proof.Machine

/-! ## Resolving a mode number -/

/-- A number above 0x10 resolves to Rainbow's (42_mode_registry R192). -/
theorem resolve_unregistered {n : BitVec 8} (h : 0x10 < n.toNat) : resolve n = 0x00 :=
  if_neg (Nat.not_le.2 h)

theorem resolve_toNat (n : BitVec 8) : (resolve n).toNat = if n.toNat ≤ 0x10 then n.toNat else 0 :=
  apply_ite BitVec.toNat _ _ _

/-- Every number up to 0x10 names a routine, the one it is the number of (30_encoding R94). -/
theorem modeOfNumber_registered {n : BitVec 8} (h : n.toNat ≤ 0x10) :
    ∃ m, modeOfNumber n = some m ∧ numberOfMode m = n := by
  unfold modeOfNumber
  split
  case h_18 =>
    simp only [imp_false] at *
    omega
  all_goals
    next hn => exact ⟨_, rfl, BitVec.eq_of_toNat_eq hn.symm⟩

/-- The routine of a fill tick is the one whose number `MODE` resolves to (42_mode_registry R193). -/
theorem numberOfMode_routineOf (n : BitVec 8) : numberOfMode (routineOf n) = resolve n := by
  obtain ⟨m, hm, hnumber⟩ := modeOfNumber_registered (resolve_le n)
  rw [routineOf, hm]
  exact hnumber

/-! ## `SET_MODE` -/

theorem setMode_eq {s : State} (hc : s.cfgErr = false) (n : BitVec 8) :
    exec (.setMode n) s = .next { s with mode := resolve n } :=
  whenConfigured_ok hc _

/-- `SET_MODE` depends on its operand through `Resolve` alone (44_control_commands R233). -/
theorem setMode_congr {n k : BitVec 8} (h : resolve n = resolve k) (s : State) :
    exec (.setMode n) s = exec (.setMode k) s :=
  congrArg (fun r => whenConfigured s (.next { s with mode := r })) h

/-- Settles O10: the register holds the resolved number, and the update names no other field. -/
theorem setModeStoresTheResolvedNumber : Obligations.SetModeStoresTheResolvedNumber :=
  fun _ n hc => ⟨_, setMode_eq hc n, resolve_toNat n, rfl⟩

/-- Settles O11: the two lines are closed terms, which the assembler evaluates, and an unregistered number
resolves as Rainbow's own does. -/
theorem unknownNameSelectsRainbow : Obligations.UnknownNameSelectsRainbow :=
  ⟨by decide, by decide, fun s _ hn => setMode_congr (resolve_unregistered hn) s⟩

/-! ## The fill tick -/

/-- Stage FILL's gate, when due, runs the selected routine, finishes the tick and moves on to WRITE
(43_scheduler R202, R207). -/
theorem fillGate_due {s u : State} (hrun : s.run = true) (hdue : fillDue s = true)
    (h : exec (instrOfMode (routineOf s.mode)) s = .next u) :
    fillGate s = .next { finishFill u with stage := .write } := by
  rw [fillGate, if_pos hrun, if_pos hdue, fillTick, runRoutine_eq, h, thenNext_of_next, thenNext_of_next]

/-- A routine leaves alone what the end of its tick reads (43_scheduler R207). -/
theorem RoutineWrites.tickInputs {s t : State} (h : RoutineWrites s t) :
    t.phase = s.phase ∧ t.speed = s.speed ∧ t.now = s.now := by
  unfold RoutineWrites at h
  rw [h]
  exact ⟨rfl, rfl, rfl⟩

/-- Settles O42: the routine answers on the sampled state and leaves `PHASE`, `SPEED` and `NOW` alone, so the
tick advances the phase it saw and stamps the sample. -/
theorem fillTickRunsTheSelectedRoutine : Obligations.FillTickRunsTheSelectedRoutine := by
  intro s hc ht hp hrun hdue
  obtain ⟨u, hu⟩ := routine_answers (routineOf s.mode) (s := sampleNow s) hc ht hp
  have hfill : exec .stageFill s = .next { finishFill u with stage := .write } :=
    (whenConfigured_ok hc _).trans (fillGate_due (s := sampleNow s) hrun hdue hu)
  obtain ⟨hphase, hspeed, hnow⟩ := (routine_writes hu).tickInputs
  refine ⟨?_, u, _, hu, hfill, ?_, hnow, rfl, rfl⟩
  · rw [encode_instrOfMode, numberOfMode_routineOf, resolve]
  · rw [finishFill_phase, hphase, hspeed, BitVec.toNat_add, sampleNow_phase, sampleNow_speed]

end Sys2Proof.Machine

/-!
PROOF. The scheduler: the comparator, the step of each stage, the independence of the two gates, one whole loop
iteration and the phase law (43_scheduler R200 to R213).
-/

namespace Sys2Proof.Machine

/-! ## The comparator -/

theorem elapsed_eq (now last : BitVec 32) :
    (elapsed now last : Int) = ((now.toNat : Int) - last.toNat) % 2 ^ 32 := by
  have hnow := now.isLt
  have hlast := last.isLt
  rw [elapsed, BitVec.toNat_sub]
  omega

/-- Settles O39: both numbers are below `2^32`, so the difference wraps at most once. -/
theorem dueComparesTheWrappedDifference : Obligations.DueComparesTheWrappedDifference := by
  intro now last iv
  refine ⟨elapsed_eq now last, ?_⟩
  rw [← elapsed_eq, due, decide_eq_true_eq, Int.ofNat_le]

/-! ## A step runs one instruction -/

theorem decodeStage_stageCodeOf (g : Stage) : decodeStage (stageCodeOf g) = instrOfStage g :=
  congrArg instrOfStage (stageOfCode_stageCodeOf g)

theorem contended_eq_false {s : State} (hw : s.commands = []) (hr : s.resets = []) : contended s = false := by
  rw [contended, hw, hr]
  rfl

theorem contended_of_command {s : State} {w : BitVec 32} {rest : List (BitVec 32)} (hw : s.commands = w :: rest) :
    contended s = true := by
  rw [contended, hw]
  rfl

/-- On the scheduler's turn the stage runs (60_exceptions R275). -/
theorem step_scheduler {s : State} (hc : s.cfgErr = false) (ht : turnOf s = .scheduler) :
    step s = exec (decodeStage (stageCodeOf s.stage)) (afterTurn s) := by
  obtain ⟨p, hp⟩ := afterTurn_eq s
  have hmove : nextMove s = .stage (afterTurn s) := by rw [nextMove, hc, ht]; rfl
  rw [step, hmove, runMove, runStage, hp]

/-- With nothing waiting the stage runs, and no choice is made (60_exceptions R275). -/
theorem step_quiet {s : State} (hc : s.cfgErr = false) (hw : s.commands = []) (hr : s.resets = []) :
    step s = exec (decodeStage (stageCodeOf s.stage)) s := by
  have hquiet := contended_eq_false hw hr
  rw [step_scheduler hc (turnOf_quiet hquiet), afterTurn_quiet hquiet]

/-- On the host's turn its oldest word is consumed and run (44_control_commands R230). -/
theorem step_host {s : State} {w : BitVec 32} {rest : List (BitVec 32)} (hc : s.cfgErr = false)
    (ht : turnOf s = .host) (hw : s.commands = w :: rest) :
    step s = runCommand w { s with commands := rest, turns := s.turns.advance } := by
  have hmove : nextMove s = .command w { afterTurn s with commands := rest } := by rw [nextMove, hc, ht, hw]; rfl
  rw [step, hmove, runMove, afterTurn_contended (contended_of_command hw)]

/-- Settles O49: by whose turn it is; the host's word runs if it decodes. -/
theorem stepRunsTheDecodedInstruction : Obligations.StepRunsTheDecodedInstruction := by
  intro s hc
  refine ⟨step_quiet hc, step_scheduler hc, fun w rest i ht hw hi => ?_, fun w rest ht hw hi => ?_⟩
  · have hi : decodeCommand w = .ok i := hi
    rw [step_host hc ht hw, runCommand, hi]
  · have hi : decodeCommand w = .error (.reservedCommand w) := hi
    rw [step_host hc ht hw, runCommand, hi]

/-! ## The stages -/

theorem stageIdle_eq {s : State} (hc : s.cfgErr = false) :
    exec .stageIdle s = .next (if s.run then { s with stage := .fill } else s) :=
  whenConfigured_ok hc _

theorem stageYield_eq {s : State} (hc : s.cfgErr = false) : exec .stageYield s = .next { s with stage := .fill } :=
  whenConfigured_ok hc _

/-- Settles O40: stage IDLE by the two values of `RUN`. -/
theorem idleAndYieldMoveOnlyTheStage : Obligations.IdleAndYieldMoveOnlyTheStage := by
  intro s hc
  refine ⟨⟨_, stageIdle_eq hc, ?_⟩, _, stageYield_eq hc, rfl, rfl⟩
  split
  · exact ⟨rfl, rfl⟩
  · exact ⟨rfl, rfl⟩

/-- Stage FILL without a fill tick (43_scheduler R202). -/
theorem stageFill_noTick {s : State} (hc : s.cfgErr = false)
    (h : s.run = false ∨ fillDue (sampleNow s) = false) :
    exec .stageFill s = .next { sampleNow s with stage := if s.run = true then .write else .idle } := by
  refine (whenConfigured_ok hc _).trans ?_
  rw [fillGate, sampleNow_run]
  split
  · next hrun =>
    have hdue : fillDue (sampleNow s) = false := h.resolve_left (by simp [hrun])
    rw [hdue]
    rfl
  · rfl

/-- Settles O41: the sample is the one thing a stage FILL without a tick takes. -/
theorem fillStageWithoutTick : Obligations.FillStageWithoutTick := fun _ hc h =>
  ⟨_, stageFill_noTick hc h, rfl, rfl, rfl, rfl⟩

/-- Stage FILL with a fill tick, around the routine's answer `u` (43_scheduler R202, R207). -/
theorem stageFill_tick {s u : State} (hc : s.cfgErr = false) (hrun : s.run = true)
    (hdue : fillDue (sampleNow s) = true) (hu : exec (instrOfMode (routineOf s.mode)) (sampleNow s) = .next u) :
    exec .stageFill s = .next { finishFill u with stage := .write } :=
  (whenConfigured_ok hc _).trans (fillGate_due (s := sampleNow s) hrun hdue hu)

/-- A stage FILL that answers made no fill tick, or one on the sampled state (43_scheduler R202). -/
theorem stageFill_next {s t : State} (h : exec .stageFill s = .next t) :
    s.cfgErr = false ∧
    (((s.run = false ∨ fillDue (sampleNow s) = false) ∧
      t = { sampleNow s with stage := if s.run = true then .write else .idle }) ∨
    (s.run = true ∧ fillDue (sampleNow s) = true ∧
      ∃ u, exec (instrOfMode (routineOf s.mode)) (sampleNow s) = .next u ∧
        t = { finishFill u with stage := .write })) := by
  obtain ⟨hc, hgate⟩ := whenConfigured_next h
  refine ⟨hc, ?_⟩
  obtain ⟨hrun, rfl⟩ | ⟨hrun, hdue, rfl⟩ | ⟨hrun, hdue, v, hv, rfl⟩ := fillGate_next hgate
  · rw [sampleNow_run] at hrun
    exact .inl ⟨.inl hrun, by rw [hrun]; rfl⟩
  · rw [sampleNow_run] at hrun
    exact .inl ⟨.inr hdue, by rw [hrun]; rfl⟩
  · obtain ⟨u, hu, rfl⟩ := fillTick_next hv
    exact .inr ⟨hrun, hdue, u, hu, rfl⟩

/-- Stage WRITE with the gate not due (43_scheduler R204). -/
theorem stageWrite_notDue {s : State} (hc : s.cfgErr = false) (hdue : writeDue s = false) :
    exec .stageWrite s = .next { s with stage := .yield } := by
  refine (whenConfigured_ok hc _).trans ?_
  rw [hdue]
  rfl

/-- Stage WRITE with the gate due (43_scheduler R204, R208). -/
theorem stageWrite_due {s : State} (hc : s.cfgErr = false) (hdue : writeDue s = true) :
    exec .stageWrite s = .next { writeTick s with stage := .yield } := by
  refine (whenConfigured_ok hc _).trans ?_
  rw [if_pos hdue]

/-! ## The snapshot and the status -/

/-- A frame holds the strip's pixels, pixel by pixel (20_memory R67). -/
theorem frameOf_pixels (s : State) : (frameOf s).pixels.length = s.numPixels ∧
    ∀ i, i < s.numPixels → (frameOf s).pixels[i]? = some (s.buf.read black i) := by
  unfold frameOf Memory.snapshot
  refine ⟨by rw [List.length_map, List.length_range], fun i hi => ?_⟩
  rw [List.getElem?_map, List.getElem?_range hi, Option.map_some]

/-- A write tick's word on the log port: one for a failure, none for a success (43_scheduler R208). -/
theorem logWords_writeTick (s : State) :
    logWords (writeTick s) = logWords s ++ (if writeAnswer s = .fail then [0x0200] else []) := by
  rw [writeTick_eq, logWords, logWords]
  split
  · exact List.map_append
  · exact (List.append_nil _).symm

/-- Settles O43: by the two values of the gate; a due one is `writeTick_eq`. -/
theorem writeStageHandsOverTheSnapshot : Obligations.WriteStageHandsOverTheSnapshot := by
  intro s hc
  refine ⟨stageWrite_notDue hc, fun hdue => ⟨_, frameOf s, stageWrite_due hc hdue, ?_⟩⟩
  obtain ⟨hlength, hpixel⟩ := frameOf_pixels s
  have hwords := logWords_writeTick s
  rw [writeTick_eq] at hwords ⊢
  exact ⟨rfl, rfl, hlength, hpixel, rfl, hwords, rfl, rfl, rfl, rfl, rfl⟩

/-! ## What stage FILL writes -/

/-- `t` differs from `s` at most in what stage FILL may write: what a routine may, `NOW` with the clock port,
`PHASE`, `LAST_FILL` and `STAGE` (43_scheduler R202, R207). -/
def FillWrites (s t : State) : Prop :=
  RoutineWrites
    { s with now := t.now, clock := t.clock, phase := t.phase, lastFill := t.lastFill, stage := t.stage } t

theorem stageFill_writes {s t : State} (h : exec .stageFill s = .next t) : FillWrites s t := by
  obtain ⟨-, ⟨-, rfl⟩ | ⟨-, -, u, hu, rfl⟩⟩ := stageFill_next h
  · rfl
  · have hwrites : RoutineWrites (sampleNow s) u := routine_writes hu
    unfold RoutineWrites at hwrites
    unfold FillWrites RoutineWrites
    rw [hwrites]
    rfl

/-- Stage FILL leaves the write gate, both intervals and the write port alone (43_scheduler R209). -/
theorem FillWrites.writeSideKept {s t : State} (h : FillWrites s t) :
    t.lastWrite = s.lastWrite ∧ t.writeInterval = s.writeInterval ∧ t.fillInterval = s.fillInterval ∧
      t.frames = s.frames ∧ t.writer = s.writer := by
  unfold FillWrites RoutineWrites at h
  rw [h]
  exact ⟨rfl, rfl, rfl, rfl, rfl⟩

/-! ## What the fill side does not read -/

/-- `s` with other contents in the write gate's registers and in `PENDING`. -/
def State.withWriteGate (s : State) (last : BitVec 32) (interval : BitVec 16) (p : Bool) : State :=
  { s with lastWrite := last, writeInterval := interval, pending := p }

section
variable (last : BitVec 32) (interval : BitVec 16) (p : Bool)

theorem withPosition_withWriteGate (s r : State) (pos : BitVec 16) :
    withPosition (s.withWriteGate last interval p) pos (r.withWriteGate last interval p) =
      (withPosition s pos r).withWriteGate last interval p := by
  by_cases hpos : s.numPixels ≤ pos.toNat
  · rw [withPosition_fault hpos]
    exact withPosition_fault hpos
  · rw [withPosition_ok (Nat.lt_of_not_le hpos)]
    exact withPosition_ok (Nat.lt_of_not_le hpos)

theorem scanMove_withWriteGate (s : State) :
    scanMove (s.withWriteGate last interval p) = (scanMove s).withWriteGate last interval p := by
  by_cases hn : s.numPixels > 1
  · rw [scanMove, scanMove, if_pos hn]
    exact if_pos hn
  · rw [scanMove, scanMove, if_neg hn]
    exact if_neg hn

/-- A routine answers alike from a state that differs in the write gate and in `PENDING`, and leaves the
difference as it is. -/
theorem routine_withWriteGate {m : ModeId} {s t : State} (h : exec (instrOfMode m) s = .next t) :
    exec (instrOfMode m) (s.withWriteGate last interval p) = .next (t.withWriteGate last interval p) := by
  cases m with
  | rainbow | solid | primaryCycle | randomFlash | breathing | colorWipe | theaterChase =>
    obtain ⟨hc, h⟩ := whenConfigured_next h
    cases h
    exact whenConfigured_ok hc _
  | gradient | strobe | pulse | twinkle | sparkle | confetti =>
    obtain ⟨hc, h⟩ := whenConfigured_next h
    obtain ⟨ht, h⟩ := whenTuned_next h
    cases h
    exact (whenConfigured_ok hc _).trans (whenTuned_ok ht _)
  | chase =>
    obtain ⟨hc, h⟩ := whenConfigured_next h
    cases h
    rw [← withPosition_withWriteGate]
    exact whenConfigured_ok hc _
  | scanner =>
    obtain ⟨hc, h⟩ := whenConfigured_next h
    cases h
    rw [← withPosition_withWriteGate, ← scanMove_withWriteGate]
    exact whenConfigured_ok hc _
  | meteor =>
    obtain ⟨hc, h⟩ := whenConfigured_next h
    obtain ⟨ht, h⟩ := whenTuned_next h
    cases h
    rw [← withPosition_withWriteGate]
    exact (whenConfigured_ok hc _).trans (whenTuned_ok ht _)
  | fire =>
    obtain ⟨hc, h⟩ := whenConfigured_next h
    obtain ⟨ht, h⟩ := whenTuned_next h
    split at h
    · cases h
    next hpixel =>
    cases h
    exact (whenConfigured_ok hc _).trans ((whenTuned_ok ht _).trans (if_neg hpixel))

/-- Stage FILL answers alike from a state that differs in the write gate and in `PENDING` (43_scheduler R209). -/
theorem stageFill_withWriteGate {s t : State} (h : exec .stageFill s = .next t) :
    exec .stageFill (s.withWriteGate last interval p) = .next (t.withWriteGate last interval p) := by
  obtain ⟨hc, ⟨hno, rfl⟩ | ⟨hrun, hdue, u, hu, rfl⟩⟩ := stageFill_next h
  · exact stageFill_noTick (s := s.withWriteGate last interval p) hc hno
  · exact stageFill_tick (s := s.withWriteGate last interval p) hc hrun hdue
      (routine_withWriteGate last interval p hu)

end

/-! ## What stage WRITE writes and does not read -/

/-- `t` differs from `s` at most in what stage WRITE may write: `LAST_WRITE`, `PENDING`, `STAGE`, the write port
and the log (43_scheduler R204, R208). -/
def WriteWrites (s t : State) : Prop :=
  t = { s with
    lastWrite := t.lastWrite, pending := t.pending, stage := t.stage, frames := t.frames, writer := t.writer,
    log := t.log }

/-- A stage WRITE that answers only moved the stage, or made a write tick too (43_scheduler R204). -/
theorem stageWrite_next {s t : State} (h : exec .stageWrite s = .next t) :
    s.cfgErr = false ∧ ((writeDue s = false ∧ t = { s with stage := .yield }) ∨
      (writeDue s = true ∧ t = { writeTick s with stage := .yield })) := by
  obtain ⟨hc, -⟩ := whenConfigured_next h
  refine ⟨hc, ?_⟩
  cases hdue : writeDue s with
  | false =>
    rw [stageWrite_notDue hc hdue] at h
    cases h
    exact .inl ⟨rfl, rfl⟩
  | true =>
    rw [stageWrite_due hc hdue] at h
    cases h
    exact .inr ⟨rfl, rfl⟩

theorem stageWrite_writes {s t : State} (h : exec .stageWrite s = .next t) : WriteWrites s t := by
  obtain ⟨-, ⟨-, rfl⟩ | ⟨-, rfl⟩⟩ := stageWrite_next h
  · rfl
  · rw [writeTick_eq]
    rfl

/-- Stage WRITE leaves the fill gate, both intervals, the picture, `NOW` and the draws alone (43_scheduler
R209). -/
theorem WriteWrites.fillSideKept {s t : State} (h : WriteWrites s t) :
    t.lastFill = s.lastFill ∧ t.fillInterval = s.fillInterval ∧ t.writeInterval = s.writeInterval ∧
      t.phase = s.phase ∧ t.buf = s.buf ∧ t.now = s.now ∧ t.random = s.random := by
  unfold WriteWrites at h
  rw [h]
  exact ⟨rfl, rfl, rfl, rfl, rfl, rfl, rfl⟩

/-- `s` with other contents in the fill gate's registers and in `PENDING`. -/
def State.withFillGate (s : State) (last : BitVec 32) (interval : BitVec 16) (p : Bool) : State :=
  { s with lastFill := last, fillInterval := interval, pending := p }

/-- Stage WRITE answers alike from a state that differs in the fill gate and in `PENDING`, which a write tick
clears (43_scheduler R208, R209). -/
theorem stageWrite_withFillGate (last : BitVec 32) (interval : BitVec 16) (p : Bool) {s t : State}
    (h : exec .stageWrite s = .next t) :
    exec .stageWrite (s.withFillGate last interval p) =
      .next (t.withFillGate last interval (if writeDue s = true then false else p)) := by
  obtain ⟨hc, ⟨hdue, rfl⟩ | ⟨hdue, rfl⟩⟩ := stageWrite_next h
  · rw [hdue]
    exact stageWrite_notDue (s := s.withFillGate last interval p) hc hdue
  · rw [stageWrite_due (s := s.withFillGate last interval p) hc hdue, hdue, writeTick_eq, writeTick_eq]
    rfl

/-- Settles O44: what each stage writes, and that it answers alike where the other gate differs. -/
theorem gatesShareOnlyTheClockSample : Obligations.GatesShareOnlyTheClockSample := by
  intro s t last interval p
  refine ⟨fun h => ?_, fun h => ?_⟩
  · obtain ⟨hlast, hwrite, hfill, hframes, hwriter⟩ := (stageFill_writes h).writeSideKept
    exact ⟨hlast, hwrite, hfill, hframes, hwriter, stageFill_withWriteGate last interval p h⟩
  · obtain ⟨hlast, hfill, hwrite, hphase, hbuf, hnow, hrandom⟩ := (stageWrite_writes h).fillSideKept
    exact ⟨hlast, hfill, hwrite, hphase, hbuf, hnow, hrandom, stageWrite_withFillGate last interval p h⟩

/-! ## The phase -/

/-- A fill tick completes, advances `PHASE` by `SPEED` and keeps `SPEED` and the parameters (43_scheduler R207). -/
theorem fillTick_answers {s : State} (hc : s.cfgErr = false) (ht : tuningLegal s.tuning = true)
    (hp : 0 < s.numPixels) :
    ∃ t, fillTick s = .next t ∧ t.phase = s.phase + s.speed ∧ t.speed = s.speed ∧ ParametersKept s t := by
  obtain ⟨u, hu⟩ := routine_answers (routineOf s.mode) hc ht hp
  have htick : fillTick s = .next (finishFill u) := by rw [fillTick, runRoutine_eq, hu, thenNext_of_next]
  obtain ⟨hphase, hspeed, -⟩ := (routine_writes hu).tickInputs
  exact ⟨_, htick, by rw [finishFill_phase, hphase, hspeed], hspeed, { (routine_writes hu).parametersKept with }⟩

/-- Settles O47: one more tick adds one more `SPEED`. -/
theorem phaseAdvancesByTheSpeed : Obligations.PhaseAdvancesByTheSpeed := by
  intro n
  induction n with
  | zero =>
    intro s _ _ _
    refine ⟨s, rfl, ?_, rfl⟩
    rw [Nat.zero_mul, Nat.add_zero, Nat.mod_eq_of_lt s.phase.isLt]
  | succ n ih =>
    intro s hc ht hp
    obtain ⟨u, htick, hphase, hspeed, kept⟩ := fillTick_answers hc ht hp
    have hpixel : 0 < u.numPixels := by rwa [State.numPixels, kept.numLeds]
    obtain ⟨t, hticks, hadvanced, hkept⟩ := ih u (kept.cfgErr.trans hc) (by rwa [kept.tuning]) hpixel
    refine ⟨t, (fillTicks_succ htick n).trans hticks, ?_, hkept.trans hspeed⟩
    rw [hadvanced, hspeed, hphase, BitVec.toNat_add, Nat.mod_add_mod, Nat.add_assoc, Nat.succ_mul,
      Nat.add_comm s.speed.toNat]

/-! ## One loop iteration -/

/-- Stage FILL of a running loop: one clock sample, and a fill tick exactly where the gate is due
(43_scheduler R202, R207). -/
theorem stageFill_running {s : State} (hc : s.cfgErr = false) (ht : tuningLegal s.tuning = true)
    (hp : 0 < s.numPixels) (hrun : s.run = true) :
    ∃ t, exec .stageFill s = .next t ∧ t.stage = .write ∧ t.now = clockAnswer s ∧ t.clock = s.clock.advance ∧
      (fillDue (sampleNow s) = false → t.phase = s.phase ∧ t.lastFill = s.lastFill ∧ t.buf = s.buf) ∧
      (fillDue (sampleNow s) = true → t.phase = s.phase + s.speed ∧ t.lastFill = clockAnswer s ∧
        ∃ r, exec (instrOfMode (routineOf s.mode)) (sampleNow s) = .next r ∧ t.buf = r.buf) := by
  cases hdue : fillDue (sampleNow s) with
  | false =>
    exact ⟨_, stageFill_noTick hc (.inr hdue), if_pos hrun, rfl, rfl, fun _ => ⟨rfl, rfl, rfl⟩, nofun⟩
  | true =>
    obtain ⟨r, hr⟩ := routine_answers (routineOf s.mode) (s := sampleNow s) hc ht hp
    have hwrites : RoutineWrites (sampleNow s) r := routine_writes hr
    obtain ⟨hphase, hspeed, hnow⟩ := hwrites.tickInputs
    have hclock : r.clock = s.clock.advance := (congrArg State.clock hwrites :)
    refine ⟨_, stageFill_tick hc hrun hdue hr, rfl, hnow, hclock, nofun, fun _ => ⟨?_, hnow, r, hr, rfl⟩⟩
    rw [finishFill_phase, hphase, hspeed, sampleNow_phase, sampleNow_speed]

/-- Stage WRITE: a write tick exactly where the gate is due (43_scheduler R204, R208). -/
theorem stageWrite_answers {s : State} (hc : s.cfgErr = false) :
    ∃ t, exec .stageWrite s = .next t ∧ t.stage = .yield ∧
      (writeDue s = false → t.frames = s.frames ∧ t.lastWrite = s.lastWrite) ∧
      (writeDue s = true → t.frames = s.frames ++ [frameOf s] ∧ t.lastWrite = s.now) := by
  cases hdue : writeDue s with
  | false => exact ⟨_, stageWrite_notDue hc hdue, rfl, fun _ => ⟨rfl, rfl⟩, nofun⟩
  | true =>
    refine ⟨_, stageWrite_due hc hdue, rfl, nofun, fun _ => ?_⟩
    rw [writeTick_eq]
    exact ⟨rfl, rfl⟩

/-- Nothing but the scheduler can move. -/
structure State.Quiet (s : State) : Prop where
  configured : s.cfgErr = false
  commands : s.commands = []
  resets : s.resets = []

/-- Where nothing else can move, a step is the stage's (43_scheduler R200). -/
theorem State.Quiet.step {s : State} (h : s.Quiet) {g : Stage} (hg : s.stage = g) :
    step s = exec (instrOfStage g) s := by
  rw [step_quiet h.configured h.commands h.resets, decodeStage_stageCodeOf, hg]

theorem State.Quiet.stage {g : Stage} {s t : State} (hs : s.Quiet) (h : exec (instrOfStage g) s = .next t) :
    t.Quiet := by
  have kept := stage_parametersKept h
  exact ⟨kept.cfgErr.trans hs.configured, kept.commands.trans hs.commands, kept.resets.trans hs.resets⟩

/-- Settles O45: the stages in their order; WRITE tests its gate on the registers it had before FILL and on FILL's
sample. -/
theorem iterationRunsEachGateAtMostOnce : Obligations.IterationRunsEachGateAtMostOnce := by
  intro s hc ht hp hrun hstage hw hr now
  have hquiet : s.Quiet := ⟨hc, hw, hr⟩
  obtain ⟨t, hfill, htstage, htnow, htclock, hskip, htick⟩ := stageFill_running hc ht hp hrun
  have htquiet : t.Quiet := hquiet.stage (g := .fill) hfill
  obtain ⟨hlast, hinterval, -, hframes, -⟩ := (stageFill_writes hfill).writeSideKept
  obtain ⟨u, hwrite, hustage, hheld, hsent⟩ := stageWrite_answers htquiet.configured
  have huquiet : u.Quiet := htquiet.stage (g := .write) hwrite
  have hwrites := stageWrite_writes hwrite
  obtain ⟨hulast, -, -, huphase, hubuf, hunow, -⟩ := hwrites.fillSideKept
  have huclock : u.clock = t.clock := (congrArg State.clock hwrites :)
  have hgate : writeDue t = due now s.lastWrite s.writeInterval := by rw [writeDue, htnow, hlast, hinterval]; rfl
  have hpixels : t.numPixels = s.numPixels :=
    congrArg BitVec.toNat (stage_parametersKept (g := .fill) hfill).numLeds
  refine ⟨t, u, { u with stage := .fill }, (hquiet.step hstage).trans hfill, htstage,
    (htquiet.step htstage).trans hwrite, hustage, (huquiet.step hustage).trans (stageYield_eq huquiet.configured),
    rfl, hunow.trans htnow, huclock.trans htclock, fun hdue => ?_, fun hdue => ?_, fun hdue => ?_, fun hdue => ?_⟩
  · obtain ⟨hphase, hlastFill, hbuf⟩ := hskip hdue
    exact ⟨huphase.trans hphase, hulast.trans hlastFill, hubuf.trans hbuf⟩
  · obtain ⟨hphase, hlastFill, r, hroutine, hbuf⟩ := htick hdue
    exact ⟨huphase.trans hphase, hulast.trans hlastFill, r, hroutine, hubuf.trans hbuf⟩
  · obtain ⟨hno, hkept⟩ := hheld (hgate.trans hdue)
    exact ⟨hno.trans hframes, hkept.trans hlast⟩
  · obtain ⟨hone, hset⟩ := hsent (hgate.trans hdue)
    obtain ⟨hlength, hpixel⟩ := frameOf_pixels t
    rw [hframes] at hone
    rw [hpixels] at hlength hpixel
    exact ⟨frameOf t, hone, hset.trans htnow, hlength, fun i hi => by rw [hpixel i hi, hubuf]⟩

end Sys2Proof.Machine

/-!
PROOF. The host commands: the arithmetic of their operands, what each answers, and what none of them writes
(44_control_commands R230 to R240).
-/

namespace Sys2Proof.Machine

/-! ## Rates -/

theorem rateToInterval_nonpos (tie : RateTie) {hz : Int} (h : hz ≤ 0) : rateToInterval tie hz = 1 := if_pos h

/-- A rate above 0: the quotient is taken down below a half, up above it, and at an exact half as the tie rule
says (44_control_commands R231). -/
theorem rateToInterval_pos (tie : RateTie) {k : Nat} (hk : 0 < k) :
    ∃ q, rateToInterval tie k = max 1 q ∧
      (q * k + 1000 % k = 1000 ∧
          (2 * (1000 % k) < k ∨ 2 * (1000 % k) = k ∧ tie = .even ∧ q % 2 = 0) ∨
        q * k + 1000 % k = 1000 + k ∧
          (k < 2 * (1000 % k) ∨ 2 * (1000 % k) = k ∧ (tie = .even → q % 2 = 0))) := by
  have hdiv : 1000 / k * k + 1000 % k = 1000 := Nat.div_add_mod' 1000 k
  have hup : (1000 / k + 1) * k + 1000 % k = 1000 + k := by rw [Nat.succ_mul]; omega
  refine ⟨_, if_neg (by omega : ¬(k : Int) ≤ 0), ?_⟩
  rw [Int.toNat_natCast]
  split
  · next habove => exact .inr ⟨hup, .inl habove⟩
  · next hnot =>
    split
    · next hhalf =>
      obtain ⟨heq, htie⟩ := hhalf
      refine .inr ⟨hup, .inr ⟨heq, fun heven => ?_⟩⟩
      have hodd : 1000 / k % 2 = 1 := htie.resolve_left (by rw [heven]; nofun)
      omega
    · next hdown =>
      refine .inl ⟨hdiv, (not_lt.1 hnot).lt_or_eq.imp_right fun heq => ?_⟩
      obtain ⟨hnotUp, hnotOdd⟩ := not_or.1 fun h => hdown ⟨heq, h⟩
      have heven : tie = .even := by
        cases tie with
        | even => rfl
        | up => exact absurd rfl hnotUp
      exact ⟨heq, heven, by omega⟩

/-- The rates whose quotient is an exact half: `2000/hz` is odd, and the odd divisors of 2000 are the powers of 5
up to 125 (44_control_commands R231). -/
theorem rate_of_half {k : Nat} (h : 2 * (1000 % k) = k) : k = 16 ∨ k = 80 ∨ k = 400 ∨ k = 2000 := by
  have hodd : (2 * (1000 / k) + 1) * k = 2000 := by
    have hdiv := Nat.div_add_mod' 1000 k
    rw [Nat.succ_mul, Nat.mul_assoc]
    omega
  have hdvd : 2 * (1000 / k) + 1 ∣ 16 * 5 ^ 3 := Dvd.intro k hodd
  have hcop : Nat.Coprime (2 * (1000 / k) + 1) 16 :=
    Nat.Coprime.pow_right 4 (Nat.coprime_two_right.2 (odd_two_mul_add_one _))
  obtain ⟨i, hi, hpow⟩ := (Nat.dvd_prime_pow Nat.prime_five).1 (hcop.dvd_of_dvd_mul_left hdvd)
  rw [hpow] at hodd
  interval_cases i <;> omega

/-- Off the exact halves the tie rule is not asked. -/
theorem rateToInterval_even_eq_up {k : Nat} (h : 2 * (1000 % k) ≠ k) :
    rateToInterval .even k = rateToInterval .up k := by
  simp [rateToInterval, h]

/-- Settles O14: on a positive rate by `rateToInterval_pos`; the rules differ at most at the halves. -/
theorem rateToIntervalRoundsToNearest : Obligations.RateToIntervalRoundsToNearest := by
  intro tie hz
  obtain ⟨hlo, hhi⟩ := rateToInterval_bounds tie hz
  refine ⟨hlo, hhi, rateToInterval_nonpos tie, fun hpos => ?_, fun h16 h80 h400 h2000 => ?_⟩
  · lift hz to Nat using hpos.le
    have hk : 0 < hz := by omega
    have hr : 1000 % hz < hz := Nat.mod_lt _ hk
    obtain ⟨q, hq, ⟨herror, hside⟩ | ⟨herror, hside⟩⟩ := rateToInterval_pos tie hk
    · have herror : (q * hz + (1000 % hz : Nat) : Int) = 1000 := by exact_mod_cast herror
      refine ⟨q, hq, by omega, by omega, fun htie => ?_⟩
      obtain ⟨-, rfl, heven⟩ : 2 * (1000 % hz) = hz ∧ tie = .even ∧ q % 2 = 0 := hside.resolve_left (by omega)
      exact ⟨fun _ => heven, nofun⟩
    · have herror : (q * hz + (1000 % hz : Nat) : Int) = 1000 + hz := by exact_mod_cast herror
      refine ⟨q, hq, by omega, by omega, fun htie => ?_⟩
      obtain ⟨-, heven⟩ : 2 * (1000 % hz) = hz ∧ (tie = .even → q % 2 = 0) := hside.resolve_left (by omega)
      exact ⟨heven, fun _ => by omega⟩
  · obtain hneg | hpos := le_or_gt hz 0
    · rw [rateToInterval_nonpos _ hneg, rateToInterval_nonpos _ hneg]
    · lift hz to Nat using hpos.le
      refine rateToInterval_even_eq_up fun hhalf => ?_
      have := rate_of_half hhalf
      omega

/-! ## What each command answers -/

section
variable {s : State} (hc : s.cfgErr = false)
include hc

theorem setSpeed_eq (step : Int) : exec (.setSpeed step) s = .next { s with speed := speedOf step } :=
  whenConfigured_ok hc _

theorem setFillRate_eq (hz : Int) :
    exec (.setFillRate hz) s = .next { s with fillInterval := intervalOf s.tuning.rateTie hz } :=
  whenConfigured_ok hc _

theorem setWriteRate_eq (hz : Int) :
    exec (.setWriteRate hz) s = .next { s with writeInterval := intervalOf s.tuning.rateTie hz } :=
  whenConfigured_ok hc _

theorem start_eq : exec .start s = .next (if s.run then s else startLoop s) := whenConfigured_ok hc _

theorem stop_eq : exec .stop s = .next { s with run := false } := whenConfigured_ok hc _

theorem setColor_eq (c : Pixel) : exec (.setColor c) s = .next { s with solidValid := true, solidPixel := c } :=
  whenConfigured_ok hc _

theorem clrColor_eq : exec .clrColor s = .next { s with solidValid := false } := whenConfigured_ok hc _

end

theorem speedOf_toNat (step : Int) : ((speedOf step).toNat : Int) = step % 256 := by
  rw [speedOf, BitVec.toNat_ofInt]
  omega

/-- Settles O12: the register holds the reduced step, and the update names no other field. -/
theorem setSpeedStoresTheStepModulo256 : Obligations.SetSpeedStoresTheStepModulo256 :=
  fun _ step hc => ⟨_, setSpeed_eq hc step, speedOf_toNat step, rfl⟩

/-- Settles O13: an interval fits its register, and each update names that register alone. -/
theorem setRatesStoreTheInterval : Obligations.SetRatesStoreTheInterval :=
  fun _ hz hc => ⟨⟨_, setFillRate_eq hc hz, intervalOf_toNat _ hz, rfl⟩,
    ⟨_, setWriteRate_eq hc hz, intervalOf_toNat _ hz, rfl⟩⟩

/-- Settles O15: by the two values of `RUN`. -/
theorem startLatchesBothTimestamps : Obligations.StartLatchesBothTimestamps := by
  intro s hc
  rw [start_eq hc]
  refine ⟨fun hrun => by rw [if_pos hrun], fun hrun => ⟨startLoop s, ?_, rfl, rfl, rfl, rfl, rfl⟩⟩
  rw [hrun]
  rfl

/-- Settles O16: the update names `RUN` alone. -/
theorem stopClearsRun : Obligations.StopClearsRun :=
  fun _ hc => ⟨_, stop_eq hc, rfl, rfl⟩

/-- Settles O17: the status port reads the register as `solidWord_toNat` says. -/
theorem colorCommandsWriteSolidColor : Obligations.ColorCommandsWriteSolidColor := by
  intro s c hc
  refine ⟨⟨_, setColor_eq hc c, rfl, rfl, solidWord_toNat _, rfl⟩, ⟨_, clrColor_eq hc, rfl, rfl, ?_, rfl⟩⟩
  have hword := solidWord_toNat { s with solidValid := false }
  rwa [if_neg Bool.false_ne_true, Nat.zero_add] at hword

/-! ## What no command writes -/

/-- An instruction's encoding has its row's format (30_encoding R90). -/
theorem encode_format (i : Instr) : (encode i).format = (opcodeRow i).format := by
  cases i <;> rfl

/-- Only `START` writes the timestamps (44_control_commands R240). -/
theorem command_timestampsKept {i : Instr} (hi : (opcodeRow i).format = .C) (hne : i ≠ .start) {s t : State}
    (h : exec i s = .next t) : t.lastFill = s.lastFill ∧ t.lastWrite = s.lastWrite := by
  cases i with
  | start => exact absurd rfl hne
  | setMode | setSpeed | setFillRate | setWriteRate | stop | setColor | clrColor =>
    obtain ⟨-, h⟩ := whenConfigured_next h
    cases h
    exact ⟨rfl, rfl⟩
  | _ => cases hi

/-- Settles O18: none of the fields but the timestamps is among what a command may write. -/
theorem commandsLeaveLoopAndPrivateStateAlone : Obligations.CommandsLeaveLoopAndPrivateStateAlone := by
  intro i s t hformat h
  have hi : (opcodeRow i).format = .C := (encode_format i).symm.trans hformat
  have hwrites := command_writes hi h
  unfold CommandWrites at hwrites
  refine ⟨?_, ?_, ?_, ?_, fun hne => command_timestampsKept hi hne h,
    ?_, ?_, ?_, ?_, ?_, ?_, ?_, ?_, ?_, ?_, ?_, ?_, ?_, ?_⟩ <;> rw [hwrites]

end Sys2Proof.Machine

/-!
PROOF. Faults and modes of operation: the recovery of a mode fault, the configuration error and the lifecycle
(60_exceptions R261 to R263, R269).
-/

namespace Sys2Proof.Machine

/-! ## The mode fault -/

/-- Where its cause holds, a mode fault is all that the routine's instruction does (60_exceptions R262, R263). -/
theorem routine_modeFault {m : ModeId} {s : State} (hc : s.cfgErr = false) (ht : tuningLegal s.tuning = true)
    (hf : modeFaults m s = true) : exec (instrOfMode m) s = .next (takeModeFault s) := by
  cases m with
  | chase => exact (chasePaintsThenAdvances s hc).1 (of_decide_eq_true hf)
  | scanner => exact (scannerPaintsThenBounces s hc).1 (of_decide_eq_true hf)
  | meteor => exact (meteorDimsThenPaintsTheTrail s hc ht).1 (of_decide_eq_true hf)
  | _ => cases hf

/-- Settles O36: the routine's answer is the recovery, and Rainbow's instruction paints the same strip. -/
theorem modeFaultLogsAndPaintsRainbow : Obligations.ModeFaultLogsAndPaintsRainbow := by
  intro s m hc ht hf
  obtain ⟨hframe, hlog, hbuf⟩ := takeModeFault_frame s
  have hword : (packEvent ⟨0x01, s.mode⟩).toNat = 0x0100 + s.mode.toNat := by simp [packEvent_toNat]
  exact ⟨_, paintRainbow s, packEvent ⟨0x01, s.mode⟩, routine_modeFault hc ht hf, whenConfigured_ok hc _, hbuf,
    hlog, hframe, logWords_emitLog s logModeFault s.mode, hword⟩

/-! ## The configuration error -/

/-- Every instruction stands behind the guard on `CFG_ERR` (60_exceptions R261). -/
theorem exec_whenConfigured (i : Instr) (s : State) : ∃ k, exec i s = whenConfigured s k := by
  cases i <;> exact ⟨_, rfl⟩

theorem exec_configError {s : State} (hc : s.cfgErr = true) (i : Instr) : exec i s = .fault .configError := by
  obtain ⟨k, hk⟩ := exec_whenConfigured i s
  rw [hk, whenConfigured, if_pos hc]

/-- Settles O50: no instruction passes the guard, and the two moves are those of `nextMove_configError`. -/
theorem configErrorStopsAllButReset : Obligations.ConfigErrorStopsAllButReset := by
  intro s hc
  refine ⟨exec_configError hc, fun hnone => ?_, fun c rest hwaits => ?_⟩
  · obtain ⟨-, hmove⟩ | ⟨c, rest, hwaits, -⟩ := nextMove_configError hc
    · rw [step, hmove, runMove]
    · cases hnone.symm.trans hwaits
  · obtain ⟨hnone, -⟩ | ⟨c', rest', hwaits', hmove⟩ := nextMove_configError hc
    · cases hnone.symm.trans hwaits
    · cases hwaits.symm.trans hwaits'
      rw [step, hmove, runMove]

/-! ## The lifecycle states -/

section
variable {s : State}

theorem lifecycle_ne_configError (hc : s.cfgErr = false) : lifecycle s ≠ .configError := by
  cases hs : s.run <;> simp [lifecycle, hc, hs, ite_eq_iff]

theorem lifecycle_eq_running_iff (hc : s.cfgErr = false) : lifecycle s = .running ↔ s.run = true := by
  cases hs : s.run <;> simp [lifecycle, hc, hs, ite_eq_iff]

theorem lifecycle_eq_stopped_iff (hc : s.cfgErr = false) :
    lifecycle s = .stopped ↔ s.run = false ∧ s.stage = .idle := by
  cases hs : s.run <;> simp [lifecycle, hc, hs]

theorem lifecycle_eq_stopping_iff (hc : s.cfgErr = false) :
    lifecycle s = .stopping ↔ s.run = false ∧ s.stage ≠ .idle := by
  cases hs : s.run <;> simp [lifecycle, hc, hs]

/-- With `RUN = 0` the stage tells STOPPED from STOPPING (60_exceptions R269). -/
theorem lifecycle_not_running (hc : s.cfgErr = false) (hrun : s.run = false) :
    lifecycle s = if s.stage = .idle then .stopped else .stopping := by
  rw [lifecycle, hc, hrun]
  rfl

end

/-! ## What moves `RUN` and `STAGE` -/

/-- Only `STOP` among the commands clears `RUN` (44_control_commands R237). -/
theorem command_clears_run {i : Instr} (hi : (opcodeRow i).format = .C) {s t : State} (h : exec i s = .next t)
    (hs : s.run = true) (ht : t.run = false) : i = .stop := by
  cases i with
  | stop => rfl
  | start =>
    obtain ⟨-, h⟩ := whenConfigured_next h
    rw [if_pos hs] at h
    cases h
    simp [hs] at ht
  | setMode | setSpeed | setFillRate | setWriteRate | setColor | clrColor =>
    obtain ⟨-, h⟩ := whenConfigured_next h
    cases h
    simp [hs] at ht
  | _ => cases hi

/-- No stage writes `RUN` (43_scheduler R200). -/
theorem stage_run {g : Stage} {s t : State} (h : exec (instrOfStage g) s = .next t) : t.run = s.run := by
  cases g with
  | idle =>
    obtain ⟨-, h⟩ := whenConfigured_next h
    cases h
    split <;> rfl
  | fill => exact (congrArg State.run (stageFill_writes h) :)
  | write => exact (congrArg State.run (stageWrite_writes h) :)
  | yield =>
    obtain ⟨-, h⟩ := whenConfigured_next h
    cases h
    rfl

/-- With `RUN = 0` the loop comes to stage IDLE from stage FILL and stays there (43_scheduler R201, R202). -/
theorem stage_idle_iff_of_not_running {g : Stage} {s t : State} (hg : s.stage = g) (hrun : s.run = false)
    (h : exec (instrOfStage g) s = .next t) : t.stage = .idle ↔ g = .idle ∨ g = .fill := by
  cases g with
  | idle =>
    rw [stageIdle_held hrun h, hg]
    decide
  | fill =>
    obtain ⟨-, ⟨-, rfl⟩ | ⟨hrun', -⟩⟩ := stageFill_next h
    · simp [hrun]
    · cases hrun.symm.trans hrun'
  | write =>
    obtain ⟨-, ⟨-, rfl⟩ | ⟨-, rfl⟩⟩ := stageWrite_next h <;> simp
  | yield =>
    obtain ⟨-, h⟩ := whenConfigured_next h
    cases h
    simp

/-- With no reset waiting `RUN` is written only by the host's `START` and `STOP`, and while `RUN = 0` stage IDLE is
never left and is entered only from stage FILL. -/
theorem step_run_stage {s t : State} (hr : s.resets = []) (h : step s = .next t) :
    s.cfgErr = false ∧ t.cfgErr = false ∧
    (s.run = false → t.run = true → HostIssues s .start) ∧
    (s.run = true → t.run = false → HostIssues s .stop ∧ t.stage = s.stage) ∧
    (s.run = false → (s.stage = .idle → t.stage = .idle) ∧
      (t.stage = .idle → s.stage = .idle ∨ s.stage = .fill)) := by
  obtain ⟨c, rest, u, hwaits, -⟩ | ⟨w, rest, i, p, hc, hturn, hw, hi, hexec⟩ | ⟨p, hc, hexec⟩ := step_next h
  · cases hr.symm.trans hwaits
  · have hformat := decodeCommand_format hi
    have hstage : t.stage = s.stage := (congrArg State.stage (command_writes hformat hexec) :)
    exact ⟨hc, (exec_parametersKept hexec).cfgErr.trans hc,
      fun hs ht => ⟨hturn, w, rest, hw, command_sets_run hformat hexec hs ht ▸ hi⟩,
      fun hs ht => ⟨⟨hturn, w, rest, hw, command_clears_run hformat hexec hs ht ▸ hi⟩, hstage⟩,
      fun _ => ⟨hstage.trans, fun hidle => .inl (hstage.symm.trans hidle)⟩⟩
  · rw [decodeStage_stageCodeOf] at hexec
    have hrun : t.run = s.run := stage_run (s := { s with turns := p }) hexec
    refine ⟨hc, (exec_parametersKept hexec).cfgErr.trans hc, fun hs ht => ?_, fun hs ht => ?_, fun hs => ?_⟩
    · cases ht.symm.trans (hrun.trans hs)
    · cases ht.symm.trans (hrun.trans hs)
    · have hidle := stage_idle_iff_of_not_running (s := { s with turns := p }) rfl hs hexec
      exact ⟨fun hsidle => hidle.2 (.inl hsidle), hidle.1⟩

/-- Settles O57: row by row, by `RUN` and, while it is 0, the stage after the step. -/
theorem lifecycleFollowsItsTable : Obligations.LifecycleFollowsItsTable := by
  intro s t hr h
  obtain ⟨hc, hct, hstart, hstop, hidle⟩ := step_run_stage hr h
  refine ⟨lifecycle_ne_configError hc, lifecycle_ne_configError hct, fun hstopped => ?_, fun hrunning => ?_,
    fun hstopping => ?_⟩
  · obtain ⟨hs, hsidle⟩ := (lifecycle_eq_stopped_iff hc).1 hstopped
    cases ht : t.run with
    | true => exact .inr ⟨(lifecycle_eq_running_iff hct).2 ht, hstart hs ht⟩
    | false => exact .inl ((lifecycle_eq_stopped_iff hct).2 ⟨ht, (hidle hs).1 hsidle⟩)
  · have hs := (lifecycle_eq_running_iff hc).1 hrunning
    cases ht : t.run with
    | true => exact .inl ((lifecycle_eq_running_iff hct).2 ht)
    | false =>
      obtain ⟨hissued, hstage⟩ := hstop hs ht
      exact .inr ⟨hissued, hstage ▸ lifecycle_not_running hct ht⟩
  · obtain ⟨hs, hsloop⟩ := (lifecycle_eq_stopping_iff hc).1 hstopping
    cases ht : t.run with
    | true => exact .inr (.inr ⟨(lifecycle_eq_running_iff hct).2 ht, hstart hs ht⟩)
    | false =>
      by_cases htidle : t.stage = .idle
      · exact .inr (.inl ⟨(lifecycle_eq_stopped_iff hct).2 ⟨ht, htidle⟩,
          ((hidle hs).2 htidle).resolve_left hsloop⟩)
      · exact .inl ((lifecycle_eq_stopping_iff hct).2 ⟨ht, htidle⟩)

end Sys2Proof.Machine

/-!
PROOF. Reset and the stop test: what a reset answers, and how a loop that `STOP` ended comes to rest
(70_reset_and_hazards R290, R301).
-/

namespace Sys2Proof.Machine

/-! ## Reset -/

/-- On its turn, and while `CFG_ERR = 1` whoever's turn it is, the oldest waiting reset moves
(60_exceptions R261, R275). -/
theorem nextMove_reset {s : State} {c : Construction} {rest : List Construction} (hr : s.resets = c :: rest)
    (h : s.cfgErr = true ∨ turnOf s = .reset) :
    ∃ p, nextMove s = .reset c { s with resets := rest, turns := p } := by
  by_cases hc : s.cfgErr = true
  · obtain ⟨hnone, -⟩ | ⟨c', rest', hwaits, hmove⟩ := nextMove_configError hc
    · cases hr.symm.trans hnone
    · cases hr.symm.trans hwaits
      exact ⟨s.turns, hmove⟩
  · have ht : turnOf s = .reset := h.resolve_left hc
    rw [Bool.not_eq_true] at hc
    obtain ⟨p, hp⟩ := afterTurn_eq s
    have hmove : nextMove s = .reset c { afterTurn s with resets := rest } := by rw [nextMove, hc, ht, hr]; rfl
    rw [hp] at hmove
    exact ⟨p, hmove⟩

/-- A reset with legal parameters answers their construction, the environment's side kept (log 9). -/
theorem performReset_legal {c : Construction} (hlegal : c.brightness.toNat ≤ 100) (s : State) :
    performReset c s = .next { State.construct s.tuning c with
      clock := s.clock, random := s.random, writer := s.writer, turns := s.turns,
      commands := s.commands, resets := s.resets, frames := s.frames, log := s.log } :=
  if_pos (decide_eq_true hlegal)

/-- Settles O52: the move is the waiting reset's, and all that its answer keeps is the environment's side. -/
theorem resetIsANewConstruction : Obligations.ResetIsANewConstruction := by
  intro s c rest hr hmoves hlegal
  obtain ⟨p, hmove⟩ := nextMove_reset hr hmoves
  have hstep : step s = performReset c { s with resets := rest, turns := p } := by rw [step, hmove, runMove]
  exact ⟨_, hstep.trans (performReset_legal hlegal _), rfl, rfl, rfl, rfl, rfl, rfl, rfl, rfl⟩

/-! ## The stop test -/

/-- With `RUN = 0` stage FILL takes its clock sample and goes idle, the picture untouched (43_scheduler R202). -/
theorem quiescent_after_fill {s : State} (h : s.Quiet) (hrun : s.run = false) (hstage : s.stage = .fill) :
    ∃ t, step s = .next t ∧ quiescent t = true ∧ t.buf = s.buf ∧ t.phase = s.phase ∧ t.frames = s.frames := by
  have hidle : (if s.run = true then Stage.write else .idle) = .idle := by rw [hrun]; rfl
  exact ⟨_, (h.step hstage).trans (stageFill_noTick h.configured (.inl hrun)),
    (quiescent_iff _).2 (.inr ⟨hidle, hrun⟩), rfl, rfl, rfl⟩

/-- From stage YIELD the loop still passes through the stop test of stage FILL (43_scheduler R205). -/
theorem quiescent_after_yield {s : State} (h : s.Quiet) (hrun : s.run = false) (hstage : s.stage = .yield) :
    ∃ t u, step s = .next t ∧ step t = .next u ∧ quiescent u = true ∧ u.buf = s.buf ∧ u.phase = s.phase ∧
      u.frames = s.frames := by
  have hyield := stageYield_eq h.configured
  obtain ⟨u, hstep, hrest⟩ := quiescent_after_fill (h.stage (g := .yield) hyield) hrun rfl
  exact ⟨_, u, (h.step hstage).trans hyield, hstep, hrest⟩

/-- Stage WRITE hands over one frame where its gate is due, else none (43_scheduler R204, R208). -/
theorem stageWrite_frames_length {s t : State} (h : exec .stageWrite s = .next t) :
    t.frames.length = s.frames.length + (if writeDue s = true then 1 else 0) := by
  obtain ⟨-, ⟨hdue, rfl⟩ | ⟨hdue, rfl⟩⟩ := stageWrite_next h
  · simp [hdue]
  · simp [hdue, writeTick_eq]

/-- Settles O46: stage FILL goes idle, YIELD passes to FILL, and WRITE to YIELD after a write tick at most. -/
theorem stopEndsWithinTheIteration : Obligations.StopEndsWithinTheIteration := by
  intro s hc hrun hw hr
  have hquiet : s.Quiet := ⟨hc, hw, hr⟩
  refine ⟨quiescent_after_fill hquiet hrun, quiescent_after_yield hquiet hrun, fun hstage => ?_⟩
  obtain ⟨t, hwrite, htstage, -⟩ := stageWrite_answers hc
  have htrun : t.run = false := (stage_run (g := .write) hwrite).trans hrun
  obtain ⟨-, -, -, hphase, hbuf, -⟩ := (stageWrite_writes hwrite).fillSideKept
  obtain ⟨u, v, hyield, hfill, hidle, hvbuf, hvphase, hvframes⟩ :=
    quiescent_after_yield (hquiet.stage (g := .write) hwrite) htrun htstage
  exact ⟨t, u, v, (hquiet.step hstage).trans hwrite, hyield, hfill, hidle, hvbuf.trans hbuf,
    hvphase.trans hphase, hvframes ▸ stageWrite_frames_length hwrite⟩

end Sys2Proof.Machine
